-- ==== Sys2Proof/Word.lean ====
section
/-! DEFINITION. Words of the machine and the finite table used for every collection of like things. -/

namespace Sys2Proof

/-- A byte of memory. -/
abbrev Byte := BitVec 8
/-- A 64-bit general register, predicate or system register (R19, R50). -/
abbrev Word := BitVec 64
/-- A 512-bit vector register (R19, R215). -/
abbrev VWord := BitVec 512
/-- A bundle address: the byte offset in the instruction store divided by 8 (R43). -/
abbrev PC := BitVec 13
/-- A 5-bit register field of an instruction word (R49, R50). -/
abbrev R5 := BitVec 5

/-- A finite table keyed by a number: pairs in rising order of the key. A key that is not listed stands for
the default that the reader names. -/
abbrev Tab (α : Type) := List (Nat × α)

/-- The entry of a key, if one is listed. -/
def Tab.find {α : Type} : Tab α → Nat → Option α
  | [], _ => none
  | (k, v) :: t, j => if k = j then some v else Tab.find t j

/-- The entry of a key, or the default. -/
def Tab.get {α : Type} (t : Tab α) (dflt : α) (j : Nat) : α :=
  match Tab.find t j with
  | some v => v
  | none => dflt

/-- The table with one entry written. -/
def Tab.put {α : Type} : Tab α → Nat → α → Tab α
  | [], j, x => [(j, x)]
  | (k, v) :: t, j, x =>
    if j < k then (j, x) :: (k, v) :: t
    else if j = k then (j, x) :: t
    else (k, v) :: Tab.put t j x

/-- The table with one key removed. -/
def Tab.del {α : Type} (t : Tab α) (j : Nat) : Tab α := t.filter (fun e => e.1 != j)

/-- The table with the entry of one key changed by a function. -/
def Tab.upd {α : Type} (t : Tab α) (dflt : α) (j : Nat) (f : α → α) : Tab α := Tab.put t j (f (Tab.get t dflt j))

end Sys2Proof
end

