-- ==== Sys2Proof/Syntax.lean ====
section
/-! DEFINITION. The instructions and events of the Vuxus machine: one constructor for each row of the opcode table. -/

namespace Sys2Proof

/-- Type suffix, codes 0 to 15 of R52 (15 is reserved). -/
inductive Ty where
  | i8 | i16 | i32 | i64 | n8 | n16 | n32 | n64 | f64 | f32 | bf16 | f16 | e4m3 | e5m2 | lut4 | res15
  deriving DecidableEq, Repr, Inhabited

/-- Scope suffix, codes 0 to 7 of R52 (7 is reserved). -/
inductive Scope where
  | ctx | core | clu | dom | die | dev | sys | res7
  deriving DecidableEq, Repr, Inhabited

/-- Ordering suffix, codes 0 to 3 of R52. Code 3 is `ar` of an atomic and `sc` of a fence. -/
inductive MemOrd where
  | pl | acq | rel | ar
  deriving DecidableEq, Repr, Inhabited

/-- Rounding suffix, codes 0 to 7 of R52 (5 to 7 are reserved). -/
inductive Rm where
  | dflt | rne | rtz | rup | rdn | res5 | res6 | res7
  deriving DecidableEq, Repr, Inhabited

/-- Where an uncorrectable error is met (R413). -/
inductive ErrSite where
  /-- the 32-byte sector of memory that holds this physical address -/
  | sector (addr : Nat)
  /-- a core's registers or instruction store, by core number -/
  | core (gid : Nat)
  /-- the line of a core's L1 that holds this physical address -/
  | l1 (gid addr : Nat)
  /-- the line of a cluster's cache part that holds this physical address -/
  | cache (cluster addr : Nat)
  deriving DecidableEq, Repr

/-- What the boot finds of one firmware image (R442): whether the signature over its digest verifies under the key that it carries, whether
the key store holds the hash of that key, and its version. -/
structure ImageInput where
  signed : Bool
  keyHeld : Bool
  version : BitVec 32
  /-- which image it is: images of the same bytes have one number (R444) -/
  image : Nat := 0
  deriving DecidableEq, Repr

/-- What the boot finds in the flash when the device is reset (R442): the steward and the device firmware of the image sets A and B. -/
structure BootInput where
  stewardA : ImageInput
  deviceA : ImageInput
  stewardB : ImageInput
  deviceB : ImageInput
  deriving DecidableEq, Repr

/-- The AtomicOps that the host may issue (R434, R435). -/
inductive HostAtomic where
  | fetchAdd | swap | cas
  deriving DecidableEq, Repr

/-- A message of the Carnis transport that a peer sends to this device (R440, R441). -/
inductive PeerMsg where
  /-- a read of `size` bytes of device memory -/
  | read (offset size : Nat)
  /-- a write of bytes to device memory -/
  | write (offset : Nat) (data : List (BitVec 8))
  /-- an atomic on device memory: operation code 0 to 7 in the order of R168, whether its type is signed, operand and compare value -/
  | atomic (op offset size : Nat) (signed : Bool) (operand compare : Nat)
  /-- the peer has delivered the message with this tag (R351, R441) -/
  | ack (tag : Nat)
  /-- the answer to the outstanding message with this tag, with the data or completion it carries -/
  | reply (tag : Nat) (data : List (BitVec 8))
  deriving DecidableEq, Repr

/-- One constructor for each row of the opcode table. The C-slot rows with operands come first, then those of the
A slot, then the events of the package, then the events that come from outside or that hardware raises by chance, and last the
rows without operands: a value of one of the last two groups is built by no definition that must run (the compiler takes
at most 245 constructors with fields that are built). Register fields are the raw five bits of the word
(R49); which class each names is said in WellFormed and Operands. -/
inductive Instr where
  /-- BR (R104) -/
  | br (disp : BitVec 14)
  /-- CALL (R107) -/
  | call (disp : BitVec 14)
  /-- JR (R104) -/
  | jr (a : R5)
  /-- CALLR (R107) -/
  | callr (a : R5)
  /-- BEQ (R104) -/
  | beq (a : R5) (b : R5) (disp : BitVec 14)
  /-- BNE (R104) -/
  | bne (a : R5) (b : R5) (disp : BitVec 14)
  /-- BLT (R104) -/
  | blt (a : R5) (b : R5) (disp : BitVec 14)
  /-- BGE (R104) -/
  | bge (a : R5) (b : R5) (disp : BitVec 14)
  /-- BLTN (R104) -/
  | bltn (a : R5) (b : R5) (disp : BitVec 14)
  /-- BGEN (R104) -/
  | bgen (a : R5) (b : R5) (disp : BitVec 14)
  /-- LOOP (R111) -/
  | loop (a : R5) (len : BitVec 7)
  /-- REP (R111) -/
  | rep (a : R5) (win : BitVec 4) (len : BitVec 7)
  /-- TRAP (R124) -/
  | trap (code : BitVec 16)
  /-- START (R117) -/
  | start (h : BitVec 4) (a : R5) (tgt : BitVec 13)
  /-- JOIN (R118) -/
  | join (mask : BitVec 10)
  /-- DONE (R123) -/
  | done (a : R5) (n : BitVec 7)
  /-- TEND (R120) -/
  | tend (a : R5)
  /-- MFS (R125) -/
  | mfs (g : R5) (sys : BitVec 12)
  /-- MTS (R125) -/
  | mts (g : R5) (sys : BitVec 12)
  /-- TLBINV (R404) -/
  | tlbinv (d : R5) (a : R5) (n : BitVec 7) (scope : Scope)
  /-- SAVE (R411) -/
  | save (d : R5) (a : R5) (b : R5)
  /-- SAVE_RES (R411) -/
  | saveRes (d : R5) (a : R5) (b : R5)
  /-- REST (R411) -/
  | rest (d : R5) (a : R5) (b : R5)
  /-- CURF (R405) -/
  | curf (d : R5) (a : R5) (b : R5)
  /-- SPAWN (R373) -/
  | spawn (d : R5) (a : R5) (b : R5)
  /-- GANG (R373) -/
  | gang (d : R5) (a : R5) (b : R5)
  /-- TLATE (R375) -/
  | tlate (d : R5)
  /-- TLATE_SET (R375) -/
  | tlateSet (d : R5) (a : R5)
  /-- LDB (R162) -/
  | ldb (d : R5) (a : R5) (imm : BitVec 14)
  /-- LDBN (R162) -/
  | ldbn (d : R5) (a : R5) (imm : BitVec 14)
  /-- LDH (R162) -/
  | ldh (d : R5) (a : R5) (imm : BitVec 14)
  /-- LDHN (R162) -/
  | ldhn (d : R5) (a : R5) (imm : BitVec 14)
  /-- LDW (R162) -/
  | ldw (d : R5) (a : R5) (imm : BitVec 14)
  /-- LDWN (R162) -/
  | ldwn (d : R5) (a : R5) (imm : BitVec 14)
  /-- LDD (R162) -/
  | ldd (d : R5) (a : R5) (imm : BitVec 14)
  /-- LDQ (R162) -/
  | ldq (d : R5) (a : R5) (imm : BitVec 14)
  /-- LDV (R162) -/
  | ldv (d : R5) (a : R5) (imm : BitVec 14)
  /-- STB (R162) -/
  | stb (d : R5) (a : R5) (imm : BitVec 14)
  /-- STH (R162) -/
  | sth (d : R5) (a : R5) (imm : BitVec 14)
  /-- STW (R162) -/
  | stw (d : R5) (a : R5) (imm : BitVec 14)
  /-- STD (R162) -/
  | std (d : R5) (a : R5) (imm : BitVec 14)
  /-- STQ (R162) -/
  | stq (d : R5) (a : R5) (imm : BitVec 14)
  /-- STV (R162) -/
  | stv (d : R5) (a : R5) (imm : BitVec 14)
  /-- FETCH (R166) -/
  | fetch (d : R5) (a : R5) (n : BitVec 7)
  /-- RLDW (R165) -/
  | rldw (d : R5) (a : R5) (imm : BitVec 14)
  /-- RLDD (R165) -/
  | rldd (d : R5) (a : R5) (imm : BitVec 14)
  /-- RSTW (R165) -/
  | rstw (d : R5) (a : R5) (imm : BitVec 14)
  /-- RSTD (R165) -/
  | rstd (d : R5) (a : R5) (imm : BitVec 14)
  /-- AADD (R168) -/
  | aadd (d : R5) (a : R5) (b : R5) (ord : MemOrd) (scope : Scope) (ty : Ty)
  /-- AAND (R168) -/
  | aand (d : R5) (a : R5) (b : R5) (ord : MemOrd) (scope : Scope) (ty : Ty)
  /-- AOR (R168) -/
  | aor (d : R5) (a : R5) (b : R5) (ord : MemOrd) (scope : Scope) (ty : Ty)
  /-- AXOR (R168) -/
  | axor (d : R5) (a : R5) (b : R5) (ord : MemOrd) (scope : Scope) (ty : Ty)
  /-- AMIN (R168) -/
  | amin (d : R5) (a : R5) (b : R5) (ord : MemOrd) (scope : Scope) (ty : Ty)
  /-- AMAX (R168) -/
  | amax (d : R5) (a : R5) (b : R5) (ord : MemOrd) (scope : Scope) (ty : Ty)
  /-- ASWP (R168) -/
  | aswp (d : R5) (a : R5) (b : R5) (ord : MemOrd) (scope : Scope) (ty : Ty)
  /-- ACAS (R168) -/
  | acas (d : R5) (a : R5) (b : R5) (ord : MemOrd) (scope : Scope) (ty : Ty)
  /-- FRD (R172) -/
  | frd (d : R5) (a : R5)
  /-- FWR (R172) -/
  | fwr (d : R5) (a : R5) (opt : Bool)
  /-- FENCE (R176) -/
  | fence (ord : MemOrd) (scope : Scope)
  /-- QFENCE (R177) -/
  | qfence (mask : R5)
  /-- CWB (R179) -/
  | cwb (a : R5) (b : R5) (scope : Scope)
  /-- CINV (R179) -/
  | cinv (a : R5) (b : R5) (scope : Scope)
  /-- CWBI (R179) -/
  | cwbi (a : R5) (b : R5) (scope : Scope)
  /-- CPIN (R180) -/
  | cpin (d : R5) (a : R5) (b : R5)
  /-- CUNPIN (R180) -/
  | cunpin (d : R5) (a : R5) (b : R5)
  /-- PREF (R179) -/
  | pref (a : R5) (b : R5) (scope : Scope)
  /-- CPGO (R303) -/
  | cpgo (d : R5)
  /-- SACQ (R314) -/
  | sacq (n : BitVec 7)
  /-- SREL (R314) -/
  | srel (a : R5) (n : BitVec 7) (scope : Scope)
  /-- SGET (R314) -/
  | sget (d : R5) (n : BitVec 7) (clear : Bool)
  /-- BELL (R332) -/
  | bell (a : R5) (n : BitVec 7)
  /-- BWAIT (R335) -/
  | bwait (n : BitVec 7)
  /-- XSEND (R328) -/
  | xsend (d : R5) (a : R5) (b : R5)
  /-- GREQ (R328) -/
  | greq (d : R5) (a : R5) (b : R5)
  /-- COLL_BAR (R336) -/
  | collBar (a : R5) (b : R5)
  /-- COLL_AG (R336) -/
  | collAg (a : R5) (b : R5)
  /-- COLL_RS (R336) -/
  | collRs (a : R5) (b : R5) (op : BitVec 2) (ty : Ty)
  /-- COLL_A2A (R336) -/
  | collA2a (a : R5) (b : R5)
  /-- GLSET (R418) -/
  | glset (d : R5) (a : R5) (b : R5)
  /-- GLRUN (R420) -/
  | glrun (a : R5) (n : BitVec 9)
  /-- GLFOOT (R423) -/
  | glfoot (a : R5) (n : BitVec 4)
  /-- GLFOOT_V (R423) -/
  | glfootV (a : R5) (n : BitVec 4)
  /-- GLEND (R419) -/
  | glend (d : R5)
  /-- LDBX (R163) -/
  | ldbx (d : R5) (a : R5) (b : R5) (ord : MemOrd) (scope : Scope) (sft : BitVec 4)
  /-- LDBNX (R163) -/
  | ldbnx (d : R5) (a : R5) (b : R5) (ord : MemOrd) (scope : Scope) (sft : BitVec 4)
  /-- LDHX (R163) -/
  | ldhx (d : R5) (a : R5) (b : R5) (ord : MemOrd) (scope : Scope) (sft : BitVec 4)
  /-- LDHNX (R163) -/
  | ldhnx (d : R5) (a : R5) (b : R5) (ord : MemOrd) (scope : Scope) (sft : BitVec 4)
  /-- LDWX (R163) -/
  | ldwx (d : R5) (a : R5) (b : R5) (ord : MemOrd) (scope : Scope) (sft : BitVec 4)
  /-- LDWNX (R163) -/
  | ldwnx (d : R5) (a : R5) (b : R5) (ord : MemOrd) (scope : Scope) (sft : BitVec 4)
  /-- LDDX (R163) -/
  | lddx (d : R5) (a : R5) (b : R5) (ord : MemOrd) (scope : Scope) (sft : BitVec 4)
  /-- LDQX (R163) -/
  | ldqx (d : R5) (a : R5) (b : R5) (ord : MemOrd) (scope : Scope) (sft : BitVec 4)
  /-- LDVX (R163) -/
  | ldvx (d : R5) (a : R5) (b : R5) (ord : MemOrd) (scope : Scope) (sft : BitVec 4)
  /-- STBX (R163) -/
  | stbx (d : R5) (a : R5) (b : R5) (ord : MemOrd) (scope : Scope) (sft : BitVec 4)
  /-- STHX (R163) -/
  | sthx (d : R5) (a : R5) (b : R5) (ord : MemOrd) (scope : Scope) (sft : BitVec 4)
  /-- STWX (R163) -/
  | stwx (d : R5) (a : R5) (b : R5) (ord : MemOrd) (scope : Scope) (sft : BitVec 4)
  /-- STDX (R163) -/
  | stdx (d : R5) (a : R5) (b : R5) (ord : MemOrd) (scope : Scope) (sft : BitVec 4)
  /-- STQX (R163) -/
  | stqx (d : R5) (a : R5) (b : R5) (ord : MemOrd) (scope : Scope) (sft : BitVec 4)
  /-- STVX (R163) -/
  | stvx (d : R5) (a : R5) (b : R5) (ord : MemOrd) (scope : Scope) (sft : BitVec 4)
  /-- ADD (R97) -/
  | add (d : R5) (a : R5) (b : R5) (ty : Ty)
  /-- SUB (R97) -/
  | sub (d : R5) (a : R5) (b : R5) (ty : Ty)
  /-- AND (R97) -/
  | and (d : R5) (a : R5) (b : R5) (ty : Ty)
  /-- OR (R97) -/
  | or (d : R5) (a : R5) (b : R5) (ty : Ty)
  /-- XOR (R97) -/
  | xor (d : R5) (a : R5) (b : R5) (ty : Ty)
  /-- ANDN (R97) -/
  | andn (d : R5) (a : R5) (b : R5) (ty : Ty)
  /-- SHL (R97) -/
  | shl (d : R5) (a : R5) (b : R5) (ty : Ty)
  /-- SHR (R97) -/
  | shr (d : R5) (a : R5) (b : R5) (ty : Ty)
  /-- SRA (R97) -/
  | sra (d : R5) (a : R5) (b : R5) (ty : Ty)
  /-- MUL (R97) -/
  | mul (d : R5) (a : R5) (b : R5) (ty : Ty)
  /-- MULH (R97) -/
  | mulh (d : R5) (a : R5) (b : R5) (ty : Ty)
  /-- DIV (R98) -/
  | div (d : R5) (a : R5) (b : R5) (ty : Ty)
  /-- REM (R98) -/
  | rem (d : R5) (a : R5) (b : R5) (ty : Ty)
  /-- MIN (R97) -/
  | min (d : R5) (a : R5) (b : R5) (ty : Ty)
  /-- MAX (R97) -/
  | max (d : R5) (a : R5) (b : R5) (ty : Ty)
  /-- SEQ (R97) -/
  | seq (d : R5) (a : R5) (b : R5) (ty : Ty)
  /-- SNE (R97) -/
  | sne (d : R5) (a : R5) (b : R5) (ty : Ty)
  /-- SLT (R97) -/
  | slt (d : R5) (a : R5) (b : R5) (ty : Ty)
  /-- SLE (R97) -/
  | sle (d : R5) (a : R5) (b : R5) (ty : Ty)
  /-- SEL (R100) -/
  | sel (d : R5) (a : R5) (b : R5) (c : R5)
  /-- POPC (R99) -/
  | popc (d : R5) (a : R5) (ty : Ty)
  /-- CLZ (R99) -/
  | clz (d : R5) (a : R5) (ty : Ty)
  /-- CTZ (R99) -/
  | ctz (d : R5) (a : R5) (ty : Ty)
  /-- EXT (R100) -/
  | ext (d : R5) (a : R5) (ty : Ty)
  /-- ROL (R97) -/
  | rol (d : R5) (a : R5) (b : R5) (ty : Ty)
  /-- ROR (R97) -/
  | ror (d : R5) (a : R5) (b : R5) (ty : Ty)
  /-- BSWAP (R99) -/
  | bswap (d : R5) (a : R5) (ty : Ty)
  /-- BEXT (R101) -/
  | bext (d : R5) (a : R5) (pos : BitVec 6) (len : BitVec 6)
  /-- BINS (R101) -/
  | bins (d : R5) (a : R5) (pos : BitVec 6) (len : BitVec 6)
  /-- ABS (R99) -/
  | abs (d : R5) (a : R5) (ty : Ty)
  /-- MOVI (R102) -/
  | movi (d : R5) (imm : BitVec 15)
  /-- LUI (R102) -/
  | lui (d : R5) (a : R5) (imm : BitVec 15)
  /-- ADDI (R102) -/
  | addi (d : R5) (a : R5) (imm : BitVec 15)
  /-- ANDI (R102) -/
  | andi (d : R5) (a : R5) (imm : BitVec 15)
  /-- ORI (R102) -/
  | ori (d : R5) (a : R5) (imm : BitVec 15)
  /-- XORI (R102) -/
  | xori (d : R5) (a : R5) (imm : BitVec 15)
  /-- SHLI (R102) -/
  | shli (d : R5) (a : R5) (sh : BitVec 6)
  /-- SHRI (R102) -/
  | shri (d : R5) (a : R5) (sh : BitVec 6)
  /-- SRAI (R102) -/
  | srai (d : R5) (a : R5) (sh : BitVec 6)
  /-- RORI (R102) -/
  | rori (d : R5) (a : R5) (sh : BitVec 6)
  /-- MULI (R102) -/
  | muli (d : R5) (a : R5) (imm : BitVec 15)
  /-- SLTI (R102) -/
  | slti (d : R5) (a : R5) (imm : BitVec 15)
  /-- SLTIN (R102) -/
  | sltin (d : R5) (a : R5) (imm : BitVec 15)
  /-- SEQI (R102) -/
  | seqi (d : R5) (a : R5) (imm : BitVec 15)
  /-- VADD (R217) -/
  | vadd (d : R5) (a : R5) (b : R5) (pg : BitVec 3) (ty : Ty) (rm : Rm)
  /-- VSUB (R217) -/
  | vsub (d : R5) (a : R5) (b : R5) (pg : BitVec 3) (ty : Ty) (rm : Rm)
  /-- VMUL (R217) -/
  | vmul (d : R5) (a : R5) (b : R5) (pg : BitVec 3) (ty : Ty) (rm : Rm)
  /-- VDIV (R217) -/
  | vdiv (d : R5) (a : R5) (b : R5) (pg : BitVec 3) (ty : Ty) (rm : Rm)
  /-- VMIN (R216) -/
  | vmin (d : R5) (a : R5) (b : R5) (pg : BitVec 3) (ty : Ty)
  /-- VMAX (R216) -/
  | vmax (d : R5) (a : R5) (b : R5) (pg : BitVec 3) (ty : Ty)
  /-- VABS (R216) -/
  | vabs (d : R5) (a : R5) (pg : BitVec 3) (ty : Ty)
  /-- VNEG (R216) -/
  | vneg (d : R5) (a : R5) (pg : BitVec 3) (ty : Ty)
  /-- VFMA (R217) -/
  | vfma (d : R5) (a : R5) (b : R5) (pg : BitVec 3) (ty : Ty) (rm : Rm)
  /-- VFMS (R217) -/
  | vfms (d : R5) (a : R5) (b : R5) (pg : BitVec 3) (ty : Ty) (rm : Rm)
  /-- VSQRT (R217) -/
  | vsqrt (d : R5) (a : R5) (pg : BitVec 3) (ty : Ty) (rm : Rm)
  /-- VAND (R216) -/
  | vand (d : R5) (a : R5) (b : R5) (pg : BitVec 3) (ty : Ty)
  /-- VOR (R216) -/
  | vor (d : R5) (a : R5) (b : R5) (pg : BitVec 3) (ty : Ty)
  /-- VXOR (R216) -/
  | vxor (d : R5) (a : R5) (b : R5) (pg : BitVec 3) (ty : Ty)
  /-- VSHL (R216) -/
  | vshl (d : R5) (a : R5) (b : R5) (pg : BitVec 3) (ty : Ty)
  /-- VSHR (R216) -/
  | vshr (d : R5) (a : R5) (b : R5) (pg : BitVec 3) (ty : Ty)
  /-- VCVT (R218) -/
  | vcvt (d : R5) (a : R5) (src : Ty) (pg : BitVec 3) (ty : Ty) (rm : Rm)
  /-- VCEQ (R219) -/
  | vceq (d : R5) (a : R5) (b : R5) (pg : BitVec 3) (ty : Ty)
  /-- VCNE (R219) -/
  | vcne (d : R5) (a : R5) (b : R5) (pg : BitVec 3) (ty : Ty)
  /-- VCLT (R219) -/
  | vclt (d : R5) (a : R5) (b : R5) (pg : BitVec 3) (ty : Ty)
  /-- VCLE (R219) -/
  | vcle (d : R5) (a : R5) (b : R5) (pg : BitVec 3) (ty : Ty)
  /-- VSEL (R221) -/
  | vsel (d : R5) (a : R5) (b : R5) (pg : BitVec 3) (ty : Ty)
  /-- VRSUM (R221) -/
  | vrsum (d : R5) (a : R5) (pg : BitVec 3) (ty : Ty) (rm : Rm)
  /-- VRMIN (R221) -/
  | vrmin (d : R5) (a : R5) (pg : BitVec 3) (ty : Ty)
  /-- VRMAX (R221) -/
  | vrmax (d : R5) (a : R5) (pg : BitVec 3) (ty : Ty)
  /-- VPERM (R222) -/
  | vperm (d : R5) (a : R5) (b : R5) (pg : BitVec 3) (ty : Ty)
  /-- VBCAST (R222) -/
  | vbcast (d : R5) (a : R5) (pg : BitVec 3) (ty : Ty)
  /-- VSLIDE (R222) -/
  | vslide (d : R5) (a : R5) (b : R5) (pg : BitVec 3) (ty : Ty)
  /-- VGAT (R223) -/
  | vgat (d : R5) (a : R5) (b : R5) (pg : BitVec 3) (ty : Ty)
  /-- VSCT (R223) -/
  | vsct (d : R5) (a : R5) (b : R5) (pg : BitVec 3) (ty : Ty)
  /-- VEXTG (R222) -/
  | vextg (d : R5) (a : R5) (b : R5) (ty : Ty)
  /-- VINSG (R222) -/
  | vinsg (d : R5) (a : R5) (b : R5) (ty : Ty)
  /-- AGET (R226) -/
  | aget (d : R5) (a : R5) (row : BitVec 4)
  /-- APUT (R226) -/
  | aput (d : R5) (a : R5) (row : BitVec 4)
  /-- SISECT (R229) -/
  | sisect (d : R5) (a : R5) (b : R5) (ty : Ty) (opt : Bool)
  /-- PAND (R220) -/
  | pand (d : R5) (a : R5) (b : R5)
  /-- POR (R220) -/
  | por (d : R5) (a : R5) (b : R5)
  /-- PXOR (R220) -/
  | pxor (d : R5) (a : R5) (b : R5)
  /-- PNOT (R220) -/
  | pnot (d : R5) (a : R5)
  /-- PCNT (R220) -/
  | pcnt (d : R5) (a : R5)
  /-- VMOV (R221) -/
  | vmov (d : R5) (a : R5) (pg : BitVec 3) (ty : Ty)
  /-- VMOVI (R221) -/
  | vmovi (d : R5) (imm : BitVec 15)
  /-- VPOPC (R216) -/
  | vpopc (d : R5) (a : R5) (pg : BitVec 3) (ty : Ty)
  /-- VCLZ (R216) -/
  | vclz (d : R5) (a : R5) (pg : BitVec 3) (ty : Ty)
  /-- VMULH (R216) -/
  | vmulh (d : R5) (a : R5) (b : R5) (pg : BitVec 3) (ty : Ty)
  /-- MMA (R257) -/
  | mma (acc : R5) (k : R5) (b : R5) (shape : BitVec 3) (hb : Bool) (ha : Bool) (bk : Bool) (rm : Rm)
  /-- MMAZ (R257) -/
  | mmaz (acc : R5) (k : R5) (b : R5) (shape : BitVec 3) (hb : Bool) (ha : Bool) (bk : Bool) (rm : Rm)
  /-- MMT (R257) -/
  | mmt (acc : R5) (k : R5) (b : R5) (shape : BitVec 3) (z : Bool) (ha : Bool) (rm : Rm)
  /-- TWALK (R276) -/
  | twalk (acc : R5) (k : R5) (b : R5) (shape : BitVec 3) (trp : Bool) (keep : Bool) (ha : Bool) (rm : Rm)
  /-- TWRES (R287) -/
  | twres (acc : R5) (k : R5) (b : R5) (shape : BitVec 3) (trp : Bool) (keep : Bool) (ha : Bool) (rm : Rm)
  /-- MWAIT (R252) -/
  | mwait (b : R5)
  /-- ACLR (R259) -/
  | aclr (acc : R5) (k : R5) (b : R5)
  /-- RSET (R242) -/
  | rset (a : R5) (k : R5) (b : R5)
  /-- RPUSH (R243) -/
  | rpush (d : R5) (k : R5) (b : R5)
  /-- RPOP (R244) -/
  | rpop (k : R5) (b : R5)
  /-- SHP (R246) -/
  | shp (a : R5) (b : R5) (shape : BitVec 3)
  /-- TEND_RETIRE (R27) -/
  | tendRetire (core : Nat)
  /-- HOST_QUEUE_READ (R363) -/
  | hostQueueRead (queue : Nat)
  /-- SPILL_REFILL (R365) -/
  | spillRefill (die : Nat)
  /-- TASK_PLACE (R371) -/
  | taskPlace (die : Nat)
  /-- GRANARY_PROGRAM_PLACE (R370) -/
  | granaryProgramPlace (gran : Nat)
  /-- TASK_LATE (R374) -/
  | taskLate (ticket : Nat)
  /-- DOMAIN_STALL (R41) -/
  | domainStall (cluster : Nat)
  /-- WRITE_BUFFER_DRAIN (R142) -/
  | writeBufferDrain (core bank : Nat)
  /-- HOME_ACCESS (R139) -/
  | homeAccess (iface : Nat)
  /-- LOAD_DATA_RETURN (R162) -/
  | loadDataReturn (core entry : Nat)
  /-- FETCH_COMPLETE (R166) -/
  | fetchComplete (core idx : Nat)
  /-- TRANSLATION_WALK (R402) -/
  | translationWalk (core entry : Nat)
  /-- TLBINV_COMPLETE (R200) -/
  | tlbinvComplete (cluster : Nat)
  /-- WAY_CHANGE_COMPLETE (R153) -/
  | wayChangeComplete (cluster : Nat)
  /-- VECTOR_START (R209) -/
  | vectorStart (cluster : Nat)
  /-- VECTOR_COMPLETE (R208) -/
  | vectorComplete (cluster group : Nat)
  /-- MILL_COMMAND_START (R258) -/
  | millCommandStart (core : Nat)
  /-- MILL_STEP (R238) -/
  | millStep (cluster : Nat)
  /-- MILL_COMMAND_RETIRE (R257) -/
  | millCommandRetire (core : Nat)
  /-- RPOP_PERFORM (R244) -/
  | rpopPerform (core : Nat)
  /-- ACLR_PERFORM (R259) -/
  | aclrPerform (core : Nat)
  /-- WALK_WAVE (R277) -/
  | walkWave (core : Nat)
  /-- COPY_ROW (R310) -/
  | copyRow (core : Nat)
  /-- COPY_COMPLETE (R311) -/
  | copyComplete (core : Nat)
  /-- SUPERSTEP_COMPLETE (R321) -/
  | superstepComplete (cluster : Nat)
  /-- XSEND_EMIT (R329) -/
  | xsendEmit (cluster : Nat)
  /-- XSEND_DELIVERY (R329) -/
  | xsendDelivery (cluster : Nat)
  /-- GATHER_REQUEST_ARRIVAL (R330) -/
  | gatherRequestArrival (cluster : Nat)
  /-- GATHER_REPLY_EMIT (R331) -/
  | gatherReplyEmit (cluster : Nat)
  /-- GATHER_REPLY_DELIVERY (R331) -/
  | gatherReplyDelivery (cluster : Nat)
  /-- DONE_ARRIVAL (R333) -/
  | doneArrival (core : Nat)
  /-- COLLECTIVE_START (R338) -/
  | collectiveStart (core : Nat)
  /-- COLLECTIVE_COMPLETE (R339) -/
  | collectiveComplete (core : Nat)
  /-- PACKET_INJECT (R351) -/
  | packetInject (iface : Nat)
  /-- PACKET_HOP (R344) -/
  | packetHop (router port rail : Nat)
  /-- PACKET_SUSPECT (R346) -/
  | packetSuspect (router port rail : Nat)
  /-- PACKET_DELIVER (R352) -/
  | packetDeliver (iface : Nat)
  /-- ACK_ARRIVAL (R351) -/
  | ackArrival (iface : Nat)
  /-- CURFEW_STOP (R406) -/
  | curfewStop (part : Nat)
  /-- CURFEW_RESUME (R408) -/
  | curfewResume (part : Nat)
  /-- SAVE_ENGINE_FINISH (R411) -/
  | saveEngineFinish (cluster : Nat)
  /-- UNCORRECTABLE_ERROR (R413) -/
  | uncorrectableError (site : ErrSite)
  /-- LLC_SECTOR_RETIRE (R414) -/
  | llcSectorRetire (gran set frame sector : Nat)
  /-- WAY_SAMPLE (R152) -/
  | waySample (cluster : Nat)
  /-- LINK_RETRY (R355) -/
  | linkRetry (router port : Nat)
  /-- ROUTE_TABLE_RECOMPUTE (R355) -/
  | routeTableRecompute (router port : Nat)
  /-- ROUTER_FAIL (R356) -/
  | routerFail (router : Nat)
  /-- TRAP_ENTRY (R390) -/
  | trapEntry (core ctx : Nat)
  /-- INTERRUPT (R395) -/
  | interrupt (core : Nat)
  /-- DOMAIN_WRITE (R37) -/
  | domainWrite (cluster : Nat) (value : BitVec 64)
  /-- PHASE_WRITE (R318) -/
  | phaseWrite (cluster : Nat) (value : BitVec 64)
  /-- WAYMASK_WRITE (R150) -/
  | waymaskWrite (cluster : Nat) (value : BitVec 64)
  /-- WAYLIM_WRITE (R151) -/
  | waylimWrite (cluster : Nat) (value : BitVec 64)
  /-- LS_WRITE (R110) -/
  | lsWrite (core ctx : Nat) (value : BitVec 64)
  /-- MSTAT_WRITE (R93) -/
  | mstatWrite (core : Nat) (value : BitVec 64)
  /-- COPY_REGISTER_WRITE (R297) -/
  | copyRegisterWrite (core ctx reg : Nat) (value : BitVec 64)
  /-- NETCTL_WRITE (R359) -/
  | netctlWrite (router : Nat) (value : BitVec 64)
  /-- PCTL_WRITE (R441) -/
  | pctlWrite (peer : Nat) (value : BitVec 64)
  /-- REGISTER_WRITE (R9) -/
  | registerWrite (tile offset : Nat) (value : BitVec 64)
  /-- DOORBELL (R437) -/
  | doorbell (value : BitVec 64)
  /-- DEVICE_RESET (R442) -/
  | deviceReset (boot : BootInput)
  /-- DROOP_EVENT (R445) -/
  | droopEvent (cluster : Nat)
  /-- POWER_THROTTLE (R446) -/
  | powerThrottle (watts : Nat)
  /-- SENSE_INTERVAL (R447) -/
  | senseInterval (cluster core temp : Nat)
  /-- HOST_BAR_ACCESS (R435) -/
  | hostBarAccess (bar offset size : Nat) (write : Bool) (data : Nat)
  /-- HOST_ATOMICOP (R435) -/
  | hostAtomicop (op : HostAtomic) (offset size : Nat) (operand compare : Nat)
  /-- PCIE_COMPLETION (R436) -/
  | pcieCompletion (tag : Nat) (ok : Bool) (data : List (BitVec 8))
  /-- PCIE_COMPLETION_TIMEOUT (R436) -/
  | pcieCompletionTimeout (tag : Nat)
  /-- PEER_MESSAGE (R441) -/
  | peerMessage (peer : Nat) (msg : PeerMsg)
  /-- PEER_RETRANSMIT (R441) -/
  | peerRetransmit (tag : Nat)
  /-- PORT_LINK_CHANGE (R440) -/
  | portLinkChange (port : Nat) (up : Bool)
  /-- SUPPLY_RECOVERY (R445) -/
  | supplyRecovery (cluster : Nat)
  /-- POWER_WITHIN_LIMIT (R446) -/
  | powerWithinLimit (watts : Nat)
  /-- HOST_LINK_CHANGE (R436) -/
  | hostLinkChange (up : Bool) (gen width : Nat)
  /-- NOP (R126) -/
  | nop
  /-- RET (R108) -/
  | ret
  /-- ERET (R399) -/
  | eret
  /-- HEND (R119) -/
  | hend
  /-- YIELD (R121) -/
  | yield
  /-- WFI (R122) -/
  | wfi
  /-- SSTEP (R320) -/
  | sstep
  /-- GLNEXT (R421) -/
  | glnext
  /-- NOP_A (R44) -/
  | nopA
  /-- MCOMMIT (R252) -/
  | mcommit
  /-- LANTERN_CAPTURE (R348) -/
  | lanternCapture
  /-- BYWAY_EJECT (R349) -/
  | bywayEject
  /-- ATTESTATION_REPORT (R444) -/
  | attestationReport
  /-- DBGCTL_FRZ (R448) -/
  | dbgctlFrz
  /-- BYPASS (R449) -/
  | bypass
  /-- IDCODE (R449) -/
  | idcode
  /-- SAMPLE_PRELOAD (R449) -/
  | samplePreload
  /-- EXTEST (R449) -/
  | extest
  /-- FREEZE (R448) -/
  | freeze
  /-- SCANOUT (R449) -/
  | scanout
  deriving DecidableEq, Repr

end Sys2Proof
end

