-- ==== Sys2Proof/Config.lean ====
section
/-! DEFINITION. What the manual leaves open and the model leaves free: opaque constants that nothing can evaluate. Each is
applied to a counter that the state holds, or to the position it depends on. -/

namespace Sys2Proof.Config

/-- Tower ticks that pass in one step, for the value of the state's free counter (R6, R39; DEDUCED, notes/assumptions/8.md). -/
opaque elapsed : Nat → Nat
/-- Lane cycles that pass in one step (R318, R326; DEDUCED, notes/assumptions/8.md). -/
opaque laneElapsed : Nat → Nat
/-- A choice among alternatives that the manual leaves open, by the free counter (DEDUCED, notes/assumptions/24.md). -/
opaque pick : Nat → Nat
/-- A 64-bit value that the manual leaves open, by the free counter. -/
opaque freeWord : Nat → BitVec 64
/-- Byte `off` of the internal parts of the core image numbered `id` (R412; DEDUCED, notes/assumptions/18.md). -/
opaque imageByte : Nat → Nat → BitVec 8
/-- Byte `off` of the internal headers of the network save area numbered `id` (R407; DEDUCED, notes/assumptions/19.md). -/
opaque netSaveByte : Nat → Nat → BitVec 8
/-- Byte `off` of a record in the Reeve's spill area, by ticket (R365; DEDUCED, notes/assumptions/19.md). -/
opaque spillByte : Nat → Nat → BitVec 8
/-- Byte `i` of the identity public key (R433, R443; DEDUCED, notes/assumptions/20.md). -/
opaque idPubByte : Nat → BitVec 8
/-- The device serial number (R444; DEDUCED, notes/assumptions/20.md). -/
opaque serial : BitVec 64
/-- Byte `i` of the SHA-512 digest of a firmware image, by the image (R444; DEDUCED, notes/assumptions/20.md). -/
opaque digestByte : Nat → Nat → BitVec 8
/-- Byte `i` of the Ed25519 signature of the device over some bytes: a function of the bytes signed (R444; DEDUCED,
notes/assumptions/20.md). -/
opaque signatureByte : List (BitVec 8) → Nat → BitVec 8
/-- The fused minimum version of a firmware image (R442; DEDUCED, notes/assumptions/20.md). -/
opaque minVersion : BitVec 32
/-- The value that a boundary-scan or scan-chain shift brings out, by the free counter (R449; DEDUCED, notes/assumptions/21.md). -/
opaque scanWord : Nat → BitVec 64

end Sys2Proof.Config
end

