-- ==== Sys2Proof/WellFormed.lean ====
section
/-! DEFINITION. Which instructions are well formed: the register classes, ranges and suffix codes of R50 to R53, and the
limits that each instruction's own rule adds. An instruction that fails a check raises ILLEGAL_ENC (R56). -/

namespace Sys2Proof

/-- The check that an ill-formed instruction fails. -/
inductive WfError where
  /-- a field of class v names a register above v15 (R50) -/
  | vectorClass
  /-- a field of class p names a register above p7 (R50) -/
  | predicateClass
  /-- an accumulator field above a15 (R50) -/
  | tileClass
  /-- a ring field above k15 (R50) -/
  | ringClass
  /-- a type code that the instruction does not accept (R52, R96, R100, R213) -/
  | typeCode
  /-- a scope code that the instruction does not accept (R52, R163, R178, R314, R404) -/
  | scopeCode
  /-- an ordering code that the instruction does not accept (R53, R163, R176) -/
  | orderingCode
  /-- a rounding code that is reserved or not accepted (R52, R213, R218) -/
  | roundingCode
  /-- a body length outside 1 to 64 (R51) -/
  | loopLength
  /-- a helper number outside 1 to 10 (R50) -/
  | helperNumber
  /-- a system register number that R59 does not list -/
  | systemRegister
  /-- a semaphore number above 63 (R50) -/
  | semaphoreNumber
  /-- a zero queue mask (R53) -/
  | queueMask
  /-- a combine code that is reserved (R336) -/
  | combineCode
  /-- a zero Gleaner body length (R417) -/
  | bodyLength
  /-- a footprint outside the limits of R417 -/
  | footRange
  /-- a bit field that runs past bit 63 (R51) -/
  | bitField
  /-- an index shift above 6 (R163) -/
  | indexShift
  /-- register numbers outside the limits of R228, R255 or R270 -/
  | registerSet
  /-- the B ring is the A ring (R255) -/
  | ringPair
  /-- HB without BR (R255) -/
  | holdB
  /-- a tile count above 16 (R259) -/
  | tileCount
  deriving DecidableEq, Repr

/-- The type names a floating format (R69; lut4 counts as one, R72). -/
def Ty.isFloat : Ty → Bool
  | .f64 | .f32 | .bf16 | .f16 | .e4m3 | .e5m2 | .lut4 => true
  | .i8 | .i16 | .i32 | .i64 | .n8 | .n16 | .n32 | .n64 | .res15 => false

/-- The length of a bit field: the len field, 0 meaning 64 (R51, R101). -/
def fieldLen (len : BitVec 6) : Nat := if len = 0 then 64 else len.toNat

namespace Wf

/-- No error when the condition holds. -/
def need (p : Prop) [Decidable p] (e : WfError) : Option WfError := if p then none else some e

/-- A field of class v (R50). -/
def vReg (r : R5) : Option WfError := need (r.toNat < 16) .vectorClass
/-- A field of class p (R50). -/
def pReg (r : R5) : Option WfError := need (r.toNat < 8) .predicateClass
/-- An accumulator field (R50). -/
def tile (r : R5) : Option WfError := need (r.toNat < 16) .tileClass
/-- A ring field (R50). -/
def ring (r : R5) : Option WfError := need (r.toNat < 16) .ringClass
/-- A semaphore number (R50). -/
def semNum (n : BitVec 7) : Option WfError := need (n.toNat < 64) .semaphoreNumber
/-- The types of the integer forms (R96). -/
def intTy (t : Ty) : Option WfError := need (t = .i32 ∨ t = .i64 ∨ t = .n32 ∨ t = .n64) .typeCode
/-- The types of group I (R212). -/
def tyI (t : Ty) : Option WfError := need (t ∈ [.i8, .n8, .i16, .n16, .i32, .n32]) .typeCode
/-- The types of group F (R212). -/
def tyF (t : Ty) : Option WfError := need (t ∈ [.bf16, .f16, .f32]) .typeCode
/-- The types of groups I and F (R212). -/
def tyIF (t : Ty) : Option WfError := need (t ∈ [.i8, .n8, .i16, .n16, .i32, .n32, .bf16, .f16, .f32]) .typeCode
/-- The types of group A (R212). -/
def tyA (t : Ty) : Option WfError :=
  need (t ∈ [.i8, .n8, .i16, .n16, .i32, .n32, .bf16, .f16, .f32, .e4m3, .e5m2]) .typeCode
/-- A rounding code that is not reserved (R52). -/
def rmOk (rm : Rm) : Option WfError := need (rm ≠ .res5 ∧ rm ≠ .res6 ∧ rm ≠ .res7) .roundingCode
/-- A rounding code, accepted for the types of group F only (R213). -/
def rmIfF (t : Ty) (rm : Rm) : Option WfError :=
  need (t ∈ [.bf16, .f16, .f32] ∨ rm = .dflt) .roundingCode <|> rmOk rm
/-- A scope code that is not reserved (R52). -/
def scopeOk (s : Scope) : Option WfError := need (s ≠ .res7) .scopeCode
/-- The ordering and scope of an indexed load (R53, R163). -/
def loadOrd (o : MemOrd) (s : Scope) : Option WfError :=
  need (o = .pl ∨ o = .acq) .orderingCode <|> need (o ≠ .pl ∨ s = .ctx) .scopeCode <|> scopeOk s
/-- The ordering and scope of an indexed store (R53, R163). -/
def storeOrd (o : MemOrd) (s : Scope) : Option WfError :=
  need (o = .pl ∨ o = .rel) .orderingCode <|> need (o ≠ .pl ∨ s = .ctx) .scopeCode <|> scopeOk s
/-- The index shift of an indexed access (R163). -/
def idxShift (k : BitVec 4) : Option WfError := need (k.toNat ≤ 6) .indexShift
/-- The system registers of R59. -/
def sysKnown (n : Nat) : Bool :=
  n ≤ 3 || (0x10 ≤ n && n ≤ 0x16) || n = 0x20 || n = 0x21 || (0x30 ≤ n && n ≤ 0x33) || n = 0x40 ||
    (0x50 ≤ n && n ≤ 0x57) || n = 0x60 || n = 0x61
/-- The register sets of sisect: in range and sharing no register, as encoded; in a repeat body the renamed fields are not looked at
again (R115, R228; DESIGN CHOICE, notes/assumptions/54.md). -/
abbrev sisectRegs (d a b : R5) (o : Bool) : Prop :=
  1 ≤ a.toNat ∧ a.toNat ≤ 30 ∧ 1 ≤ b.toNat ∧ b.toNat ≤ 30 ∧ 1 ≤ d.toNat ∧ (if o then d.toNat ≤ 30 else d.toNat ≤ 31) ∧
    (a.toNat + 1 < b.toNat ∨ b.toNat + 1 < a.toNat) ∧
    (d.toNat + (if o then 1 else 0) < a.toNat ∨ a.toNat + 1 < d.toNat) ∧
    (d.toNat + (if o then 1 else 0) < b.toNat ∨ b.toNat + 1 < d.toNat)

end Wf

open Wf in
/-- The first check that an instruction fails, if any. Events have no encoding and are well formed. The limit on the registers of a
register-form `glfoot` is put on the fields as encoded, in a repeat body too (R56; DESIGN CHOICE, notes/assumptions/54.md). -/
def wfError (i : Instr) : Option WfError :=
  match i with
  | .nop => none
  | .br _ => none
  | .call _ => none
  | .jr _ => none
  | .callr _ => none
  | .ret => none
  | .beq _ _ _ => none
  | .bne _ _ _ => none
  | .blt _ _ _ => none
  | .bge _ _ _ => none
  | .bltn _ _ _ => none
  | .bgen _ _ _ => none
  | .loop _ len => need (1 ≤ len.toNat ∧ len.toNat ≤ 64) .loopLength
  | .rep _ _ len => need (1 ≤ len.toNat ∧ len.toNat ≤ 64) .loopLength
  | .trap _ => none
  | .eret => none
  | .start h _ _ => need (1 ≤ h.toNat ∧ h.toNat ≤ 10) .helperNumber
  | .join _ => none
  | .hend => none
  | .yield => none
  | .done _ _ => none
  | .tend _ => none
  | .wfi => none
  | .mfs _ sys => need (sysKnown sys.toNat) .systemRegister
  | .mts _ sys => need (sysKnown sys.toNat) .systemRegister
  | .tlbinv _ _ n scope => semNum n <|> need (scope = .clu ∨ scope = .die ∨ scope = .dev) .scopeCode
  | .save _ _ _ => none
  | .saveRes _ _ _ => none
  | .rest _ _ _ => none
  | .curf _ _ _ => none
  | .spawn _ _ _ => none
  | .gang _ _ _ => none
  | .tlate _ => none
  | .tlateSet _ _ => none
  | .ldb _ _ _ => none
  | .ldbn _ _ _ => none
  | .ldh _ _ _ => none
  | .ldhn _ _ _ => none
  | .ldw _ _ _ => none
  | .ldwn _ _ _ => none
  | .ldd _ _ _ => none
  | .ldq d _ _ => vReg d
  | .ldv d _ _ => vReg d
  | .stb _ _ _ => none
  | .sth _ _ _ => none
  | .stw _ _ _ => none
  | .std _ _ _ => none
  | .stq d _ _ => vReg d
  | .stv d _ _ => vReg d
  | .fetch _ _ n => semNum n
  | .rldw _ _ _ => none
  | .rldd _ _ _ => none
  | .rstw _ _ _ => none
  | .rstd _ _ _ => none
  | .aadd _ _ _ _ scope ty => intTy ty <|> scopeOk scope
  | .aand _ _ _ _ scope ty => intTy ty <|> scopeOk scope
  | .aor _ _ _ _ scope ty => intTy ty <|> scopeOk scope
  | .axor _ _ _ _ scope ty => intTy ty <|> scopeOk scope
  | .amin _ _ _ _ scope ty => intTy ty <|> scopeOk scope
  | .amax _ _ _ _ scope ty => intTy ty <|> scopeOk scope
  | .aswp _ _ _ _ scope ty => intTy ty <|> scopeOk scope
  | .acas _ _ _ _ scope ty => intTy ty <|> scopeOk scope
  | .frd _ _ => none
  | .fwr _ _ _ => none
  | .fence ord scope => need (ord ≠ .pl) .orderingCode <|> scopeOk scope
  | .qfence mask => need (mask ≠ 0) .queueMask
  | .cwb _ _ scope => scopeOk scope
  | .cinv _ _ scope => scopeOk scope
  | .cwbi _ _ scope => scopeOk scope
  | .cpin _ _ _ => none
  | .cunpin _ _ _ => none
  | .pref _ _ scope => scopeOk scope
  | .cpgo _ => none
  | .sacq n => semNum n
  | .srel _ n scope => semNum n <|> need (scope = .core ∨ scope = .dev) .scopeCode
  | .sget _ n _ => semNum n
  | .bell _ _ => none
  | .bwait _ => none
  | .sstep => none
  | .xsend _ _ _ => none
  | .greq _ _ _ => none
  | .collBar _ _ => none
  | .collAg _ _ => none
  | .collRs _ _ op ty => need (op.toNat ≤ 2) .combineCode <|> need (ty ∈ [.i32, .i64, .n32, .n64, .f64, .f32, .bf16, .f16]) .typeCode
  | .collA2a _ _ => none
  | .glset _ _ _ => none
  | .glrun _ n => need (n ≠ 0) .bodyLength
  | .glfoot a n => need (a ≠ 0 ∧ n.toNat ≤ 7 ∧ a.toNat + n.toNat ≤ 31) .footRange
  | .glfootV a _ => vReg a
  | .glnext => none
  | .glend _ => none
  | .ldbx _ _ _ ord scope sft => loadOrd ord scope <|> idxShift sft
  | .ldbnx _ _ _ ord scope sft => loadOrd ord scope <|> idxShift sft
  | .ldhx _ _ _ ord scope sft => loadOrd ord scope <|> idxShift sft
  | .ldhnx _ _ _ ord scope sft => loadOrd ord scope <|> idxShift sft
  | .ldwx _ _ _ ord scope sft => loadOrd ord scope <|> idxShift sft
  | .ldwnx _ _ _ ord scope sft => loadOrd ord scope <|> idxShift sft
  | .lddx _ _ _ ord scope sft => loadOrd ord scope <|> idxShift sft
  | .ldqx d _ _ ord scope sft => vReg d <|> loadOrd ord scope <|> idxShift sft
  | .ldvx d _ _ ord scope sft => vReg d <|> loadOrd ord scope <|> idxShift sft
  | .stbx _ _ _ ord scope sft => storeOrd ord scope <|> idxShift sft
  | .sthx _ _ _ ord scope sft => storeOrd ord scope <|> idxShift sft
  | .stwx _ _ _ ord scope sft => storeOrd ord scope <|> idxShift sft
  | .stdx _ _ _ ord scope sft => storeOrd ord scope <|> idxShift sft
  | .stqx d _ _ ord scope sft => vReg d <|> storeOrd ord scope <|> idxShift sft
  | .stvx d _ _ ord scope sft => vReg d <|> storeOrd ord scope <|> idxShift sft
  | .nopA => none
  | .add _ _ _ ty => intTy ty
  | .sub _ _ _ ty => intTy ty
  | .and _ _ _ ty => intTy ty
  | .or _ _ _ ty => intTy ty
  | .xor _ _ _ ty => intTy ty
  | .andn _ _ _ ty => intTy ty
  | .shl _ _ _ ty => intTy ty
  | .shr _ _ _ ty => intTy ty
  | .sra _ _ _ ty => intTy ty
  | .mul _ _ _ ty => intTy ty
  | .mulh _ _ _ ty => intTy ty
  | .div _ _ _ ty => intTy ty
  | .rem _ _ _ ty => intTy ty
  | .min _ _ _ ty => intTy ty
  | .max _ _ _ ty => intTy ty
  | .seq _ _ _ ty => intTy ty
  | .sne _ _ _ ty => intTy ty
  | .slt _ _ _ ty => intTy ty
  | .sle _ _ _ ty => intTy ty
  | .sel _ _ _ _ => none
  | .popc _ _ ty => intTy ty
  | .clz _ _ ty => intTy ty
  | .ctz _ _ ty => intTy ty
  | .ext _ _ ty => need (ty ∈ [.i8, .i16, .i32, .n8, .n16, .n32]) .typeCode
  | .rol _ _ _ ty => intTy ty
  | .ror _ _ _ ty => intTy ty
  | .bswap _ _ ty => intTy ty
  | .bext _ _ pos len => need (pos.toNat + fieldLen len ≤ 64) .bitField
  | .bins _ _ pos len => need (pos.toNat + fieldLen len ≤ 64) .bitField
  | .abs _ _ ty => need (ty = .i32 ∨ ty = .i64) .typeCode
  | .movi _ _ => none
  | .lui _ _ _ => none
  | .addi _ _ _ => none
  | .andi _ _ _ => none
  | .ori _ _ _ => none
  | .xori _ _ _ => none
  | .shli _ _ _ => none
  | .shri _ _ _ => none
  | .srai _ _ _ => none
  | .rori _ _ _ => none
  | .muli _ _ _ => none
  | .slti _ _ _ => none
  | .sltin _ _ _ => none
  | .seqi _ _ _ => none
  | .vadd d a b _ ty rm => vReg d <|> vReg a <|> vReg b <|> tyIF ty <|> rmIfF ty rm
  | .vsub d a b _ ty rm => vReg d <|> vReg a <|> vReg b <|> tyIF ty <|> rmIfF ty rm
  | .vmul d a b _ ty rm => vReg d <|> vReg a <|> vReg b <|> tyIF ty <|> rmIfF ty rm
  | .vdiv d a b _ ty rm => vReg d <|> vReg a <|> vReg b <|> tyF ty <|> rmOk rm
  | .vmin d a b _ ty => vReg d <|> vReg a <|> vReg b <|> tyIF ty
  | .vmax d a b _ ty => vReg d <|> vReg a <|> vReg b <|> tyIF ty
  | .vabs d a _ ty => vReg d <|> vReg a <|> need (ty ∈ [.i8, .i16, .i32, .bf16, .f16, .f32]) .typeCode
  | .vneg d a _ ty => vReg d <|> vReg a <|> need (ty ∈ [.i8, .i16, .i32, .bf16, .f16, .f32]) .typeCode
  | .vfma d a b _ ty rm => vReg d <|> vReg a <|> vReg b <|> tyIF ty <|> rmIfF ty rm
  | .vfms d a b _ ty rm => vReg d <|> vReg a <|> vReg b <|> tyIF ty <|> rmIfF ty rm
  | .vsqrt d a _ ty rm => vReg d <|> vReg a <|> tyF ty <|> rmOk rm
  | .vand d a b _ ty => vReg d <|> vReg a <|> vReg b <|> tyI ty
  | .vor d a b _ ty => vReg d <|> vReg a <|> vReg b <|> tyI ty
  | .vxor d a b _ ty => vReg d <|> vReg a <|> vReg b <|> tyI ty
  | .vshl d a b _ ty => vReg d <|> vReg a <|> vReg b <|> tyI ty
  | .vshr d a b _ ty => vReg d <|> vReg a <|> vReg b <|> tyI ty
  | .vcvt d a src _ ty rm => vReg d <|> vReg a <|> tyA ty <|> tyA src <|> need (ty.isFloat ∨ src.isFloat ∨ rm = .dflt) .roundingCode <|> rmOk rm
  | .vceq d a b _ ty => pReg d <|> vReg a <|> vReg b <|> tyIF ty
  | .vcne d a b _ ty => pReg d <|> vReg a <|> vReg b <|> tyIF ty
  | .vclt d a b _ ty => pReg d <|> vReg a <|> vReg b <|> tyIF ty
  | .vcle d a b _ ty => pReg d <|> vReg a <|> vReg b <|> tyIF ty
  | .vsel d a b _ ty => vReg d <|> vReg a <|> vReg b <|> tyA ty
  | .vrsum d a _ ty rm => vReg d <|> vReg a <|> tyIF ty <|> rmIfF ty rm
  | .vrmin d a _ ty => vReg d <|> vReg a <|> tyIF ty
  | .vrmax d a _ ty => vReg d <|> vReg a <|> tyIF ty
  | .vperm d a b _ ty => vReg d <|> vReg a <|> vReg b <|> tyA ty
  | .vbcast d _ _ ty => vReg d <|> tyA ty
  | .vslide d a _ _ ty => vReg d <|> vReg a <|> tyA ty
  | .vgat d _ b _ ty => vReg d <|> vReg b <|> tyA ty
  | .vsct d _ b _ ty => vReg d <|> vReg b <|> tyA ty
  | .vextg _ a _ ty => vReg a <|> tyA ty
  | .vinsg d _ _ ty => vReg d <|> tyA ty
  | .aget d a _ => vReg d <|> tile a
  | .aput d a _ => tile d <|> vReg a
  | .sisect d a b ty opt => need (ty = .n32 ∨ ty = .n64) .typeCode <|> need (sisectRegs d a b opt) .registerSet
  | .pand d a b => pReg d <|> pReg a <|> pReg b
  | .por d a b => pReg d <|> pReg a <|> pReg b
  | .pxor d a b => pReg d <|> pReg a <|> pReg b
  | .pnot d a => pReg d <|> pReg a
  | .pcnt _ a => pReg a
  | .vmov d a _ ty => vReg d <|> vReg a <|> tyA ty
  | .vmovi d _ => vReg d
  | .vpopc d a _ ty => vReg d <|> vReg a <|> tyI ty
  | .vclz d a _ ty => vReg d <|> vReg a <|> tyI ty
  | .vmulh d a b _ ty => vReg d <|> vReg a <|> vReg b <|> tyI ty
  | .mma acc k b _ hb _ bk rm => tile acc <|> ring k <|> need (¬ bk ∨ b.toNat < 16) .ringClass <|> need (¬ bk ∨ b ≠ k) .ringPair <|> need (¬ hb ∨ bk) .holdB <|> rmOk rm
  | .mmaz acc k b _ hb _ bk rm => tile acc <|> ring k <|> need (¬ bk ∨ b.toNat < 16) .ringClass <|> need (¬ bk ∨ b ≠ k) .ringPair <|> need (¬ hb ∨ bk) .holdB <|> rmOk rm
  | .mmt acc k b _ _ _ rm => tile acc <|> ring k <|> need (1 ≤ b.toNat ∧ b.toNat ≤ 30) .registerSet <|> rmOk rm
  | .twalk acc k _ _ _ _ _ rm => tile acc <|> ring k <|> rmOk rm
  | .twres acc k _ _ _ _ _ rm => tile acc <|> ring k <|> rmOk rm
  | .mcommit => none
  | .mwait _ => none
  | .aclr acc k _ => tile acc <|> need (k.toNat < 16) .tileCount
  | .rset _ k _ => ring k
  | .rpush _ k _ => ring k
  | .rpop k _ => ring k
  | .shp _ _ _ => none
  | .tendRetire _ => none
  | .hostQueueRead _ => none
  | .spillRefill _ => none
  | .taskPlace _ => none
  | .granaryProgramPlace _ => none
  | .taskLate _ => none
  | .uncorrectableError _ => none
  | .llcSectorRetire _ _ _ _ => none
  | .domainStall _ => none
  | .writeBufferDrain _ _ => none
  | .homeAccess _ => none
  | .loadDataReturn _ _ => none
  | .fetchComplete _ _ => none
  | .translationWalk _ _ => none
  | .tlbinvComplete _ => none
  | .waySample _ => none
  | .wayChangeComplete _ => none
  | .vectorStart _ => none
  | .vectorComplete _ _ => none
  | .millCommandStart _ => none
  | .millStep _ => none
  | .millCommandRetire _ => none
  | .rpopPerform _ => none
  | .aclrPerform _ => none
  | .walkWave _ => none
  | .copyRow _ => none
  | .copyComplete _ => none
  | .superstepComplete _ => none
  | .xsendEmit _ => none
  | .xsendDelivery _ => none
  | .gatherRequestArrival _ => none
  | .gatherReplyEmit _ => none
  | .gatherReplyDelivery _ => none
  | .doneArrival _ => none
  | .collectiveStart _ => none
  | .collectiveComplete _ => none
  | .packetInject _ => none
  | .packetHop _ _ _ => none
  | .packetSuspect _ _ _ => none
  | .lanternCapture => none
  | .bywayEject => none
  | .packetDeliver _ => none
  | .ackArrival _ => none
  | .linkRetry _ _ => none
  | .routeTableRecompute _ _ => none
  | .routerFail _ => none
  | .trapEntry _ _ => none
  | .interrupt _ => none
  | .curfewStop _ => none
  | .curfewResume _ => none
  | .domainWrite _ _ => none
  | .phaseWrite _ _ => none
  | .waymaskWrite _ _ => none
  | .waylimWrite _ _ => none
  | .lsWrite _ _ _ => none
  | .mstatWrite _ _ => none
  | .copyRegisterWrite _ _ _ _ => none
  | .netctlWrite _ _ => none
  | .pctlWrite _ _ => none
  | .registerWrite _ _ _ => none
  | .doorbell _ => none
  | .attestationReport => none
  | .deviceReset _ => none
  | .droopEvent _ => none
  | .powerThrottle _ => none
  | .senseInterval _ _ _ => none
  | .hostBarAccess _ _ _ _ _ => none
  | .hostAtomicop _ _ _ _ _ => none
  | .pcieCompletion _ _ _ => none
  | .pcieCompletionTimeout _ => none
  | .peerMessage _ _ => none
  | .peerRetransmit _ => none
  | .portLinkChange _ _ => none
  | .dbgctlFrz => none
  | .bypass => none
  | .idcode => none
  | .samplePreload => none
  | .extest => none
  | .freeze => none
  | .scanout => none
  | .saveEngineFinish _ => none
  | .supplyRecovery _ => none
  | .powerWithinLimit _ => none
  | .hostLinkChange _ _ _ => none

/-- An instruction that passes every check. -/
abbrev WellFormed (i : Instr) : Prop := wfError i = none

end Sys2Proof
end

