-- ==== Sys2Proof/Decode.lean ====
section
/-! DEFINITION. Decoding of bundles and test-access-port codes (R43 to R56, R449), and the encoder written from the same
tables. A word is the number that its bits spell. -/

namespace Sys2Proof

/-- The Ty suffix of a code (R52). -/
def Ty.ofCode : Nat → Ty
  | 0 => .i8
  | 1 => .i16
  | 2 => .i32
  | 3 => .i64
  | 4 => .n8
  | 5 => .n16
  | 6 => .n32
  | 7 => .n64
  | 8 => .f64
  | 9 => .f32
  | 10 => .bf16
  | 11 => .f16
  | 12 => .e4m3
  | 13 => .e5m2
  | 14 => .lut4
  | _ => .res15

/-- The code of a Ty suffix (R52). -/
def Ty.code : Ty → Nat
  | .i8 => 0
  | .i16 => 1
  | .i32 => 2
  | .i64 => 3
  | .n8 => 4
  | .n16 => 5
  | .n32 => 6
  | .n64 => 7
  | .f64 => 8
  | .f32 => 9
  | .bf16 => 10
  | .f16 => 11
  | .e4m3 => 12
  | .e5m2 => 13
  | .lut4 => 14
  | .res15 => 15

/-- The Scope suffix of a code (R52). -/
def Scope.ofCode : Nat → Scope
  | 0 => .ctx
  | 1 => .core
  | 2 => .clu
  | 3 => .dom
  | 4 => .die
  | 5 => .dev
  | 6 => .sys
  | _ => .res7

/-- The code of a Scope suffix (R52). -/
def Scope.code : Scope → Nat
  | .ctx => 0
  | .core => 1
  | .clu => 2
  | .dom => 3
  | .die => 4
  | .dev => 5
  | .sys => 6
  | .res7 => 7

/-- The MemOrd suffix of a code (R52). -/
def MemOrd.ofCode : Nat → MemOrd
  | 0 => .pl
  | 1 => .acq
  | 2 => .rel
  | _ => .ar

/-- The code of a MemOrd suffix (R52). -/
def MemOrd.code : MemOrd → Nat
  | .pl => 0
  | .acq => 1
  | .rel => 2
  | .ar => 3

/-- The Rm suffix of a code (R52). -/
def Rm.ofCode : Nat → Rm
  | 0 => .dflt
  | 1 => .rne
  | 2 => .rtz
  | 3 => .rup
  | 4 => .rdn
  | 5 => .res5
  | 6 => .res6
  | _ => .res7

/-- The code of a Rm suffix (R52). -/
def Rm.code : Rm → Nat
  | .dflt => 0
  | .rne => 1
  | .rtz => 2
  | .rup => 3
  | .rdn => 4
  | .res5 => 5
  | .res6 => 6
  | .res7 => 7

/-- The `n` bits of a word from bit `lo` up. -/
def fld (w lo n : Nat) : Nat := w / 2 ^ lo % 2 ^ n
/-- A five-bit register field. -/
def r5 (w lo : Nat) : R5 := BitVec.ofNat 5 (fld w lo 5)
/-- A one-bit field. -/
def flag (w lo : Nat) : Bool := fld w lo 1 == 1

/-- Why a bundle is not an instruction. Each raises ILLEGAL_ENC (R56). -/
inductive DecodeError where
  /-- an opcode that R54 or R55 leaves unassigned -/
  | unassigned
  /-- a reserved or unused field that is not zero (R50, R56) -/
  | reservedField
  /-- the lone bit is 1 and word 1 is not zero (R44) -/
  | loneWord
  /-- a field outside its class or range, or a reserved code (R50 to R53) -/
  | illFormed (e : WfError)
  /-- both slots name one destination register (R46) -/
  | sameDestination
  deriving DecidableEq, Repr

/-- The C-slot instruction of word 0 (R49, R54). The lone bit, bit 31, is not looked at. -/
def decodeC (w : Nat) : Except DecodeError Instr :=
  match fld w 24 7 with
  | 0x00 => if fld w 0 24 = 0 then .ok .nop else .error .reservedField
  | 0x01 => if fld w 14 10 = 0 then .ok (.br (BitVec.ofNat 14 (fld w 0 14))) else .error .reservedField
  | 0x02 => if fld w 14 10 = 0 then .ok (.call (BitVec.ofNat 14 (fld w 0 14))) else .error .reservedField
  | 0x03 => if fld w 0 14 = 0 ∧ fld w 19 5 = 0 then .ok (.jr (r5 w 14)) else .error .reservedField
  | 0x04 => if fld w 0 14 = 0 ∧ fld w 19 5 = 0 then .ok (.callr (r5 w 14)) else .error .reservedField
  | 0x05 => if fld w 0 24 = 0 then .ok .ret else .error .reservedField
  | 0x06 => .ok (.beq (r5 w 19) (r5 w 14) (BitVec.ofNat 14 (fld w 0 14)))
  | 0x07 => .ok (.bne (r5 w 19) (r5 w 14) (BitVec.ofNat 14 (fld w 0 14)))
  | 0x08 => .ok (.blt (r5 w 19) (r5 w 14) (BitVec.ofNat 14 (fld w 0 14)))
  | 0x09 => .ok (.bge (r5 w 19) (r5 w 14) (BitVec.ofNat 14 (fld w 0 14)))
  | 0x0a => .ok (.bltn (r5 w 19) (r5 w 14) (BitVec.ofNat 14 (fld w 0 14)))
  | 0x0b => .ok (.bgen (r5 w 19) (r5 w 14) (BitVec.ofNat 14 (fld w 0 14)))
  | 0x0c => if fld w 7 12 = 0 then .ok (.loop (r5 w 19) (BitVec.ofNat 7 (fld w 0 7))) else .error .reservedField
  | 0x0d => if fld w 7 8 = 0 then .ok (.rep (r5 w 19) (BitVec.ofNat 4 (fld w 15 4)) (BitVec.ofNat 7 (fld w 0 7))) else .error .reservedField
  | 0x0e => if fld w 16 8 = 0 then .ok (.trap (BitVec.ofNat 16 (fld w 0 16))) else .error .reservedField
  | 0x0f => if fld w 0 24 = 0 then .ok .eret else .error .reservedField
  | 0x10 => if fld w 13 2 = 0 then .ok (.start (BitVec.ofNat 4 (fld w 20 4)) (r5 w 15) (BitVec.ofNat 13 (fld w 0 13))) else .error .reservedField
  | 0x11 => if fld w 0 14 = 0 then .ok (.join (BitVec.ofNat 10 (fld w 14 10))) else .error .reservedField
  | 0x12 => if fld w 0 24 = 0 then .ok .hend else .error .reservedField
  | 0x13 => if fld w 0 24 = 0 then .ok .yield else .error .reservedField
  | 0x14 => if fld w 0 7 = 0 ∧ fld w 19 5 = 0 then .ok (.done (r5 w 14) (BitVec.ofNat 7 (fld w 7 7))) else .error .reservedField
  | 0x15 => if fld w 0 14 = 0 ∧ fld w 19 5 = 0 then .ok (.tend (r5 w 14)) else .error .reservedField
  | 0x16 => if fld w 0 24 = 0 then .ok .wfi else .error .reservedField
  | 0x17 => if fld w 12 7 = 0 then .ok (.mfs (r5 w 19) (BitVec.ofNat 12 (fld w 0 12))) else .error .reservedField
  | 0x18 => if fld w 12 7 = 0 then .ok (.mts (r5 w 19) (BitVec.ofNat 12 (fld w 0 12))) else .error .reservedField
  | 0x19 => if fld w 0 4 = 0 then .ok (.tlbinv (r5 w 19) (r5 w 14) (BitVec.ofNat 7 (fld w 7 7)) (Scope.ofCode (fld w 4 3))) else .error .reservedField
  | 0x1a => 
    if fld w 0 9 = 0 then .ok (.save (r5 w 19) (r5 w 14) (r5 w 9)) else
    if fld w 0 9 = 1 then .ok (.saveRes (r5 w 19) (r5 w 14) (r5 w 9)) else .error .reservedField
  | 0x1b => if fld w 0 9 = 0 then .ok (.rest (r5 w 19) (r5 w 14) (r5 w 9)) else .error .reservedField
  | 0x1c => if fld w 0 9 = 0 then .ok (.curf (r5 w 19) (r5 w 14) (r5 w 9)) else .error .reservedField
  | 0x1d => if fld w 0 9 = 0 then .ok (.spawn (r5 w 19) (r5 w 14) (r5 w 9)) else .error .reservedField
  | 0x1e => if fld w 0 9 = 0 then .ok (.gang (r5 w 19) (r5 w 14) (r5 w 9)) else .error .reservedField
  | 0x1f => 
    if fld w 0 19 = 0 then .ok (.tlate (r5 w 19)) else
    if fld w 0 14 = 1 then .ok (.tlateSet (r5 w 19) (r5 w 14)) else .error .reservedField
  | 0x20 => .ok (.ldb (r5 w 19) (r5 w 14) (BitVec.ofNat 14 (fld w 0 14)))
  | 0x21 => .ok (.ldbn (r5 w 19) (r5 w 14) (BitVec.ofNat 14 (fld w 0 14)))
  | 0x22 => .ok (.ldh (r5 w 19) (r5 w 14) (BitVec.ofNat 14 (fld w 0 14)))
  | 0x23 => .ok (.ldhn (r5 w 19) (r5 w 14) (BitVec.ofNat 14 (fld w 0 14)))
  | 0x24 => .ok (.ldw (r5 w 19) (r5 w 14) (BitVec.ofNat 14 (fld w 0 14)))
  | 0x25 => .ok (.ldwn (r5 w 19) (r5 w 14) (BitVec.ofNat 14 (fld w 0 14)))
  | 0x26 => .ok (.ldd (r5 w 19) (r5 w 14) (BitVec.ofNat 14 (fld w 0 14)))
  | 0x27 => .ok (.ldq (r5 w 19) (r5 w 14) (BitVec.ofNat 14 (fld w 0 14)))
  | 0x28 => .ok (.ldv (r5 w 19) (r5 w 14) (BitVec.ofNat 14 (fld w 0 14)))
  | 0x29 => .ok (.stb (r5 w 19) (r5 w 14) (BitVec.ofNat 14 (fld w 0 14)))
  | 0x2a => .ok (.sth (r5 w 19) (r5 w 14) (BitVec.ofNat 14 (fld w 0 14)))
  | 0x2b => .ok (.stw (r5 w 19) (r5 w 14) (BitVec.ofNat 14 (fld w 0 14)))
  | 0x2c => .ok (.std (r5 w 19) (r5 w 14) (BitVec.ofNat 14 (fld w 0 14)))
  | 0x2d => .ok (.stq (r5 w 19) (r5 w 14) (BitVec.ofNat 14 (fld w 0 14)))
  | 0x2e => .ok (.stv (r5 w 19) (r5 w 14) (BitVec.ofNat 14 (fld w 0 14)))
  | 0x2f => if fld w 0 7 = 0 then .ok (.fetch (r5 w 19) (r5 w 14) (BitVec.ofNat 7 (fld w 7 7))) else .error .reservedField
  | 0x30 => .ok (.rldw (r5 w 19) (r5 w 14) (BitVec.ofNat 14 (fld w 0 14)))
  | 0x31 => .ok (.rldd (r5 w 19) (r5 w 14) (BitVec.ofNat 14 (fld w 0 14)))
  | 0x32 => .ok (.rstw (r5 w 19) (r5 w 14) (BitVec.ofNat 14 (fld w 0 14)))
  | 0x33 => .ok (.rstd (r5 w 19) (r5 w 14) (BitVec.ofNat 14 (fld w 0 14)))
  | 0x34 => .ok (.aadd (r5 w 19) (r5 w 14) (r5 w 9) (MemOrd.ofCode (fld w 7 2)) (Scope.ofCode (fld w 4 3)) (Ty.ofCode (fld w 0 4)))
  | 0x35 => .ok (.aand (r5 w 19) (r5 w 14) (r5 w 9) (MemOrd.ofCode (fld w 7 2)) (Scope.ofCode (fld w 4 3)) (Ty.ofCode (fld w 0 4)))
  | 0x36 => .ok (.aor (r5 w 19) (r5 w 14) (r5 w 9) (MemOrd.ofCode (fld w 7 2)) (Scope.ofCode (fld w 4 3)) (Ty.ofCode (fld w 0 4)))
  | 0x37 => .ok (.axor (r5 w 19) (r5 w 14) (r5 w 9) (MemOrd.ofCode (fld w 7 2)) (Scope.ofCode (fld w 4 3)) (Ty.ofCode (fld w 0 4)))
  | 0x38 => .ok (.amin (r5 w 19) (r5 w 14) (r5 w 9) (MemOrd.ofCode (fld w 7 2)) (Scope.ofCode (fld w 4 3)) (Ty.ofCode (fld w 0 4)))
  | 0x39 => .ok (.amax (r5 w 19) (r5 w 14) (r5 w 9) (MemOrd.ofCode (fld w 7 2)) (Scope.ofCode (fld w 4 3)) (Ty.ofCode (fld w 0 4)))
  | 0x3a => .ok (.aswp (r5 w 19) (r5 w 14) (r5 w 9) (MemOrd.ofCode (fld w 7 2)) (Scope.ofCode (fld w 4 3)) (Ty.ofCode (fld w 0 4)))
  | 0x3b => .ok (.acas (r5 w 19) (r5 w 14) (r5 w 9) (MemOrd.ofCode (fld w 7 2)) (Scope.ofCode (fld w 4 3)) (Ty.ofCode (fld w 0 4)))
  | 0x3c => if fld w 0 14 = 0 then .ok (.frd (r5 w 19) (r5 w 14)) else .error .reservedField
  | 0x3d => if fld w 1 13 = 0 then .ok (.fwr (r5 w 19) (r5 w 14) (flag w 0)) else .error .reservedField
  | 0x3e => if fld w 0 4 = 0 ∧ fld w 9 15 = 0 then .ok (.fence (MemOrd.ofCode (fld w 7 2)) (Scope.ofCode (fld w 4 3))) else .error .reservedField
  | 0x3f => if fld w 5 19 = 0 then .ok (.qfence (r5 w 0)) else .error .reservedField
  | 0x40 => if fld w 0 4 = 0 ∧ fld w 7 2 = 0 ∧ fld w 19 5 = 0 then .ok (.cwb (r5 w 14) (r5 w 9) (Scope.ofCode (fld w 4 3))) else .error .reservedField
  | 0x41 => if fld w 0 4 = 0 ∧ fld w 7 2 = 0 ∧ fld w 19 5 = 0 then .ok (.cinv (r5 w 14) (r5 w 9) (Scope.ofCode (fld w 4 3))) else .error .reservedField
  | 0x42 => if fld w 0 4 = 0 ∧ fld w 7 2 = 0 ∧ fld w 19 5 = 0 then .ok (.cwbi (r5 w 14) (r5 w 9) (Scope.ofCode (fld w 4 3))) else .error .reservedField
  | 0x43 => if fld w 0 9 = 80 then .ok (.cpin (r5 w 19) (r5 w 14) (r5 w 9)) else .error .reservedField
  | 0x44 => if fld w 0 9 = 80 then .ok (.cunpin (r5 w 19) (r5 w 14) (r5 w 9)) else .error .reservedField
  | 0x45 => if fld w 0 4 = 0 ∧ fld w 7 2 = 0 ∧ fld w 19 5 = 0 then .ok (.pref (r5 w 14) (r5 w 9) (Scope.ofCode (fld w 4 3))) else .error .reservedField
  | 0x46 => if fld w 0 19 = 0 then .ok (.cpgo (r5 w 19)) else .error .reservedField
  | 0x47 => if fld w 0 7 = 0 ∧ fld w 14 10 = 0 then .ok (.sacq (BitVec.ofNat 7 (fld w 7 7))) else .error .reservedField
  | 0x48 => if fld w 0 4 = 0 ∧ fld w 19 5 = 0 then .ok (.srel (r5 w 14) (BitVec.ofNat 7 (fld w 7 7)) (Scope.ofCode (fld w 4 3))) else .error .reservedField
  | 0x49 => if fld w 1 6 = 0 ∧ fld w 14 5 = 0 then .ok (.sget (r5 w 19) (BitVec.ofNat 7 (fld w 7 7)) (flag w 0)) else .error .reservedField
  | 0x4a => if fld w 0 7 = 0 ∧ fld w 19 5 = 0 then .ok (.bell (r5 w 14) (BitVec.ofNat 7 (fld w 7 7))) else .error .reservedField
  | 0x4b => if fld w 0 7 = 0 ∧ fld w 14 10 = 0 then .ok (.bwait (BitVec.ofNat 7 (fld w 7 7))) else .error .reservedField
  | 0x4c => if fld w 0 24 = 0 then .ok .sstep else .error .reservedField
  | 0x4d => if fld w 0 9 = 0 then .ok (.xsend (r5 w 19) (r5 w 14) (r5 w 9)) else .error .reservedField
  | 0x4e => if fld w 0 9 = 0 then .ok (.greq (r5 w 19) (r5 w 14) (r5 w 9)) else .error .reservedField
  | 0x4f => 
    if fld w 0 9 = 0 ∧ fld w 19 5 = 0 then .ok (.collBar (r5 w 14) (r5 w 9)) else
    if fld w 0 9 = 64 ∧ fld w 19 5 = 0 then .ok (.collAg (r5 w 14) (r5 w 9)) else
    if fld w 6 3 = 2 ∧ fld w 19 5 = 0 then .ok (.collRs (r5 w 14) (r5 w 9) (BitVec.ofNat 2 (fld w 4 2)) (Ty.ofCode (fld w 0 4))) else
    if fld w 0 9 = 192 ∧ fld w 19 5 = 0 then .ok (.collA2a (r5 w 14) (r5 w 9)) else .error .reservedField
  | 0x50 => if fld w 0 9 = 0 then .ok (.glset (r5 w 19) (r5 w 14) (r5 w 9)) else .error .reservedField
  | 0x51 => if fld w 9 5 = 0 ∧ fld w 19 5 = 0 then .ok (.glrun (r5 w 14) (BitVec.ofNat 9 (fld w 0 9))) else .error .reservedField
  | 0x52 => 
    if fld w 4 10 = 0 ∧ fld w 19 5 = 0 then .ok (.glfoot (r5 w 14) (BitVec.ofNat 4 (fld w 0 4))) else
    if fld w 4 10 = 16 ∧ fld w 19 5 = 0 then .ok (.glfootV (r5 w 14) (BitVec.ofNat 4 (fld w 0 4))) else .error .reservedField
  | 0x53 => if fld w 0 24 = 0 then .ok .glnext else .error .reservedField
  | 0x54 => if fld w 0 19 = 0 then .ok (.glend (r5 w 19)) else .error .reservedField
  | 0x60 => .ok (.ldbx (r5 w 19) (r5 w 14) (r5 w 9) (MemOrd.ofCode (fld w 7 2)) (Scope.ofCode (fld w 4 3)) (BitVec.ofNat 4 (fld w 0 4)))
  | 0x61 => .ok (.ldbnx (r5 w 19) (r5 w 14) (r5 w 9) (MemOrd.ofCode (fld w 7 2)) (Scope.ofCode (fld w 4 3)) (BitVec.ofNat 4 (fld w 0 4)))
  | 0x62 => .ok (.ldhx (r5 w 19) (r5 w 14) (r5 w 9) (MemOrd.ofCode (fld w 7 2)) (Scope.ofCode (fld w 4 3)) (BitVec.ofNat 4 (fld w 0 4)))
  | 0x63 => .ok (.ldhnx (r5 w 19) (r5 w 14) (r5 w 9) (MemOrd.ofCode (fld w 7 2)) (Scope.ofCode (fld w 4 3)) (BitVec.ofNat 4 (fld w 0 4)))
  | 0x64 => .ok (.ldwx (r5 w 19) (r5 w 14) (r5 w 9) (MemOrd.ofCode (fld w 7 2)) (Scope.ofCode (fld w 4 3)) (BitVec.ofNat 4 (fld w 0 4)))
  | 0x65 => .ok (.ldwnx (r5 w 19) (r5 w 14) (r5 w 9) (MemOrd.ofCode (fld w 7 2)) (Scope.ofCode (fld w 4 3)) (BitVec.ofNat 4 (fld w 0 4)))
  | 0x66 => .ok (.lddx (r5 w 19) (r5 w 14) (r5 w 9) (MemOrd.ofCode (fld w 7 2)) (Scope.ofCode (fld w 4 3)) (BitVec.ofNat 4 (fld w 0 4)))
  | 0x67 => .ok (.ldqx (r5 w 19) (r5 w 14) (r5 w 9) (MemOrd.ofCode (fld w 7 2)) (Scope.ofCode (fld w 4 3)) (BitVec.ofNat 4 (fld w 0 4)))
  | 0x68 => .ok (.ldvx (r5 w 19) (r5 w 14) (r5 w 9) (MemOrd.ofCode (fld w 7 2)) (Scope.ofCode (fld w 4 3)) (BitVec.ofNat 4 (fld w 0 4)))
  | 0x69 => .ok (.stbx (r5 w 19) (r5 w 14) (r5 w 9) (MemOrd.ofCode (fld w 7 2)) (Scope.ofCode (fld w 4 3)) (BitVec.ofNat 4 (fld w 0 4)))
  | 0x6a => .ok (.sthx (r5 w 19) (r5 w 14) (r5 w 9) (MemOrd.ofCode (fld w 7 2)) (Scope.ofCode (fld w 4 3)) (BitVec.ofNat 4 (fld w 0 4)))
  | 0x6b => .ok (.stwx (r5 w 19) (r5 w 14) (r5 w 9) (MemOrd.ofCode (fld w 7 2)) (Scope.ofCode (fld w 4 3)) (BitVec.ofNat 4 (fld w 0 4)))
  | 0x6c => .ok (.stdx (r5 w 19) (r5 w 14) (r5 w 9) (MemOrd.ofCode (fld w 7 2)) (Scope.ofCode (fld w 4 3)) (BitVec.ofNat 4 (fld w 0 4)))
  | 0x6d => .ok (.stqx (r5 w 19) (r5 w 14) (r5 w 9) (MemOrd.ofCode (fld w 7 2)) (Scope.ofCode (fld w 4 3)) (BitVec.ofNat 4 (fld w 0 4)))
  | 0x6e => .ok (.stvx (r5 w 19) (r5 w 14) (r5 w 9) (MemOrd.ofCode (fld w 7 2)) (Scope.ofCode (fld w 4 3)) (BitVec.ofNat 4 (fld w 0 4)))
  | _ => .error .unassigned

/-- The A-slot instruction of word 1 (R49, R55). -/
def decodeA (w : Nat) : Except DecodeError Instr :=
  match fld w 25 7 with
  | 0x00 => if fld w 0 25 = 0 then .ok .nopA else .error .reservedField
  | 0x01 => if fld w 0 6 = 0 then .ok (.add (r5 w 20) (r5 w 15) (r5 w 10) (Ty.ofCode (fld w 6 4))) else .error .reservedField
  | 0x02 => if fld w 0 6 = 0 then .ok (.sub (r5 w 20) (r5 w 15) (r5 w 10) (Ty.ofCode (fld w 6 4))) else .error .reservedField
  | 0x03 => if fld w 0 6 = 0 then .ok (.and (r5 w 20) (r5 w 15) (r5 w 10) (Ty.ofCode (fld w 6 4))) else .error .reservedField
  | 0x04 => if fld w 0 6 = 0 then .ok (.or (r5 w 20) (r5 w 15) (r5 w 10) (Ty.ofCode (fld w 6 4))) else .error .reservedField
  | 0x05 => if fld w 0 6 = 0 then .ok (.xor (r5 w 20) (r5 w 15) (r5 w 10) (Ty.ofCode (fld w 6 4))) else .error .reservedField
  | 0x06 => if fld w 0 6 = 0 then .ok (.andn (r5 w 20) (r5 w 15) (r5 w 10) (Ty.ofCode (fld w 6 4))) else .error .reservedField
  | 0x07 => if fld w 0 6 = 0 then .ok (.shl (r5 w 20) (r5 w 15) (r5 w 10) (Ty.ofCode (fld w 6 4))) else .error .reservedField
  | 0x08 => if fld w 0 6 = 0 then .ok (.shr (r5 w 20) (r5 w 15) (r5 w 10) (Ty.ofCode (fld w 6 4))) else .error .reservedField
  | 0x09 => if fld w 0 6 = 0 then .ok (.sra (r5 w 20) (r5 w 15) (r5 w 10) (Ty.ofCode (fld w 6 4))) else .error .reservedField
  | 0x0a => if fld w 0 6 = 0 then .ok (.mul (r5 w 20) (r5 w 15) (r5 w 10) (Ty.ofCode (fld w 6 4))) else .error .reservedField
  | 0x0b => if fld w 0 6 = 0 then .ok (.mulh (r5 w 20) (r5 w 15) (r5 w 10) (Ty.ofCode (fld w 6 4))) else .error .reservedField
  | 0x0c => if fld w 0 6 = 0 then .ok (.div (r5 w 20) (r5 w 15) (r5 w 10) (Ty.ofCode (fld w 6 4))) else .error .reservedField
  | 0x0d => if fld w 0 6 = 0 then .ok (.rem (r5 w 20) (r5 w 15) (r5 w 10) (Ty.ofCode (fld w 6 4))) else .error .reservedField
  | 0x0e => if fld w 0 6 = 0 then .ok (.min (r5 w 20) (r5 w 15) (r5 w 10) (Ty.ofCode (fld w 6 4))) else .error .reservedField
  | 0x0f => if fld w 0 6 = 0 then .ok (.max (r5 w 20) (r5 w 15) (r5 w 10) (Ty.ofCode (fld w 6 4))) else .error .reservedField
  | 0x10 => if fld w 0 6 = 0 then .ok (.seq (r5 w 20) (r5 w 15) (r5 w 10) (Ty.ofCode (fld w 6 4))) else .error .reservedField
  | 0x11 => if fld w 0 6 = 0 then .ok (.sne (r5 w 20) (r5 w 15) (r5 w 10) (Ty.ofCode (fld w 6 4))) else .error .reservedField
  | 0x12 => if fld w 0 6 = 0 then .ok (.slt (r5 w 20) (r5 w 15) (r5 w 10) (Ty.ofCode (fld w 6 4))) else .error .reservedField
  | 0x13 => if fld w 0 6 = 0 then .ok (.sle (r5 w 20) (r5 w 15) (r5 w 10) (Ty.ofCode (fld w 6 4))) else .error .reservedField
  | 0x14 => if fld w 0 5 = 0 then .ok (.sel (r5 w 20) (r5 w 15) (r5 w 10) (r5 w 5)) else .error .reservedField
  | 0x15 => if fld w 0 6 = 0 ∧ fld w 10 5 = 0 then .ok (.popc (r5 w 20) (r5 w 15) (Ty.ofCode (fld w 6 4))) else .error .reservedField
  | 0x16 => if fld w 0 6 = 0 ∧ fld w 10 5 = 0 then .ok (.clz (r5 w 20) (r5 w 15) (Ty.ofCode (fld w 6 4))) else .error .reservedField
  | 0x17 => if fld w 0 6 = 0 ∧ fld w 10 5 = 0 then .ok (.ctz (r5 w 20) (r5 w 15) (Ty.ofCode (fld w 6 4))) else .error .reservedField
  | 0x18 => if fld w 0 6 = 0 ∧ fld w 10 5 = 0 then .ok (.ext (r5 w 20) (r5 w 15) (Ty.ofCode (fld w 6 4))) else .error .reservedField
  | 0x19 => if fld w 0 6 = 0 then .ok (.rol (r5 w 20) (r5 w 15) (r5 w 10) (Ty.ofCode (fld w 6 4))) else .error .reservedField
  | 0x1a => if fld w 0 6 = 0 then .ok (.ror (r5 w 20) (r5 w 15) (r5 w 10) (Ty.ofCode (fld w 6 4))) else .error .reservedField
  | 0x1b => if fld w 0 6 = 0 ∧ fld w 10 5 = 0 then .ok (.bswap (r5 w 20) (r5 w 15) (Ty.ofCode (fld w 6 4))) else .error .reservedField
  | 0x1c => if fld w 0 3 = 0 then .ok (.bext (r5 w 20) (r5 w 15) (BitVec.ofNat 6 (fld w 9 6)) (BitVec.ofNat 6 (fld w 3 6))) else .error .reservedField
  | 0x1d => if fld w 0 3 = 0 then .ok (.bins (r5 w 20) (r5 w 15) (BitVec.ofNat 6 (fld w 9 6)) (BitVec.ofNat 6 (fld w 3 6))) else .error .reservedField
  | 0x1e => if fld w 0 6 = 0 ∧ fld w 10 5 = 0 then .ok (.abs (r5 w 20) (r5 w 15) (Ty.ofCode (fld w 6 4))) else .error .reservedField
  | 0x20 => if fld w 15 5 = 0 then .ok (.movi (r5 w 20) (BitVec.ofNat 15 (fld w 0 15))) else .error .reservedField
  | 0x21 => .ok (.lui (r5 w 20) (r5 w 15) (BitVec.ofNat 15 (fld w 0 15)))
  | 0x22 => .ok (.addi (r5 w 20) (r5 w 15) (BitVec.ofNat 15 (fld w 0 15)))
  | 0x23 => .ok (.andi (r5 w 20) (r5 w 15) (BitVec.ofNat 15 (fld w 0 15)))
  | 0x24 => .ok (.ori (r5 w 20) (r5 w 15) (BitVec.ofNat 15 (fld w 0 15)))
  | 0x25 => .ok (.xori (r5 w 20) (r5 w 15) (BitVec.ofNat 15 (fld w 0 15)))
  | 0x26 => if fld w 6 9 = 0 then .ok (.shli (r5 w 20) (r5 w 15) (BitVec.ofNat 6 (fld w 0 6))) else .error .reservedField
  | 0x27 => if fld w 6 9 = 0 then .ok (.shri (r5 w 20) (r5 w 15) (BitVec.ofNat 6 (fld w 0 6))) else .error .reservedField
  | 0x28 => if fld w 6 9 = 0 then .ok (.srai (r5 w 20) (r5 w 15) (BitVec.ofNat 6 (fld w 0 6))) else .error .reservedField
  | 0x29 => if fld w 6 9 = 0 then .ok (.rori (r5 w 20) (r5 w 15) (BitVec.ofNat 6 (fld w 0 6))) else .error .reservedField
  | 0x2a => .ok (.muli (r5 w 20) (r5 w 15) (BitVec.ofNat 15 (fld w 0 15)))
  | 0x2b => .ok (.slti (r5 w 20) (r5 w 15) (BitVec.ofNat 15 (fld w 0 15)))
  | 0x2c => .ok (.sltin (r5 w 20) (r5 w 15) (BitVec.ofNat 15 (fld w 0 15)))
  | 0x2d => .ok (.seqi (r5 w 20) (r5 w 15) (BitVec.ofNat 15 (fld w 0 15)))
  | 0x30 => .ok (.vadd (r5 w 20) (r5 w 15) (r5 w 10) (BitVec.ofNat 3 (fld w 7 3)) (Ty.ofCode (fld w 3 4)) (Rm.ofCode (fld w 0 3)))
  | 0x31 => .ok (.vsub (r5 w 20) (r5 w 15) (r5 w 10) (BitVec.ofNat 3 (fld w 7 3)) (Ty.ofCode (fld w 3 4)) (Rm.ofCode (fld w 0 3)))
  | 0x32 => .ok (.vmul (r5 w 20) (r5 w 15) (r5 w 10) (BitVec.ofNat 3 (fld w 7 3)) (Ty.ofCode (fld w 3 4)) (Rm.ofCode (fld w 0 3)))
  | 0x33 => .ok (.vdiv (r5 w 20) (r5 w 15) (r5 w 10) (BitVec.ofNat 3 (fld w 7 3)) (Ty.ofCode (fld w 3 4)) (Rm.ofCode (fld w 0 3)))
  | 0x34 => if fld w 0 3 = 0 then .ok (.vmin (r5 w 20) (r5 w 15) (r5 w 10) (BitVec.ofNat 3 (fld w 7 3)) (Ty.ofCode (fld w 3 4))) else .error .reservedField
  | 0x35 => if fld w 0 3 = 0 then .ok (.vmax (r5 w 20) (r5 w 15) (r5 w 10) (BitVec.ofNat 3 (fld w 7 3)) (Ty.ofCode (fld w 3 4))) else .error .reservedField
  | 0x36 => if fld w 0 3 = 0 ∧ fld w 10 5 = 0 then .ok (.vabs (r5 w 20) (r5 w 15) (BitVec.ofNat 3 (fld w 7 3)) (Ty.ofCode (fld w 3 4))) else .error .reservedField
  | 0x37 => if fld w 0 3 = 0 ∧ fld w 10 5 = 0 then .ok (.vneg (r5 w 20) (r5 w 15) (BitVec.ofNat 3 (fld w 7 3)) (Ty.ofCode (fld w 3 4))) else .error .reservedField
  | 0x38 => .ok (.vfma (r5 w 20) (r5 w 15) (r5 w 10) (BitVec.ofNat 3 (fld w 7 3)) (Ty.ofCode (fld w 3 4)) (Rm.ofCode (fld w 0 3)))
  | 0x39 => .ok (.vfms (r5 w 20) (r5 w 15) (r5 w 10) (BitVec.ofNat 3 (fld w 7 3)) (Ty.ofCode (fld w 3 4)) (Rm.ofCode (fld w 0 3)))
  | 0x3a => if fld w 10 5 = 0 then .ok (.vsqrt (r5 w 20) (r5 w 15) (BitVec.ofNat 3 (fld w 7 3)) (Ty.ofCode (fld w 3 4)) (Rm.ofCode (fld w 0 3))) else .error .reservedField
  | 0x3b => if fld w 0 3 = 0 then .ok (.vand (r5 w 20) (r5 w 15) (r5 w 10) (BitVec.ofNat 3 (fld w 7 3)) (Ty.ofCode (fld w 3 4))) else .error .reservedField
  | 0x3c => if fld w 0 3 = 0 then .ok (.vor (r5 w 20) (r5 w 15) (r5 w 10) (BitVec.ofNat 3 (fld w 7 3)) (Ty.ofCode (fld w 3 4))) else .error .reservedField
  | 0x3d => if fld w 0 3 = 0 then .ok (.vxor (r5 w 20) (r5 w 15) (r5 w 10) (BitVec.ofNat 3 (fld w 7 3)) (Ty.ofCode (fld w 3 4))) else .error .reservedField
  | 0x3e => if fld w 0 3 = 0 then .ok (.vshl (r5 w 20) (r5 w 15) (r5 w 10) (BitVec.ofNat 3 (fld w 7 3)) (Ty.ofCode (fld w 3 4))) else .error .reservedField
  | 0x3f => if fld w 0 3 = 0 then .ok (.vshr (r5 w 20) (r5 w 15) (r5 w 10) (BitVec.ofNat 3 (fld w 7 3)) (Ty.ofCode (fld w 3 4))) else .error .reservedField
  | 0x40 => if fld w 14 1 = 0 then .ok (.vcvt (r5 w 20) (r5 w 15) (Ty.ofCode (fld w 10 4)) (BitVec.ofNat 3 (fld w 7 3)) (Ty.ofCode (fld w 3 4)) (Rm.ofCode (fld w 0 3))) else .error .reservedField
  | 0x41 => if fld w 0 3 = 0 then .ok (.vceq (r5 w 20) (r5 w 15) (r5 w 10) (BitVec.ofNat 3 (fld w 7 3)) (Ty.ofCode (fld w 3 4))) else .error .reservedField
  | 0x42 => if fld w 0 3 = 0 then .ok (.vcne (r5 w 20) (r5 w 15) (r5 w 10) (BitVec.ofNat 3 (fld w 7 3)) (Ty.ofCode (fld w 3 4))) else .error .reservedField
  | 0x43 => if fld w 0 3 = 0 then .ok (.vclt (r5 w 20) (r5 w 15) (r5 w 10) (BitVec.ofNat 3 (fld w 7 3)) (Ty.ofCode (fld w 3 4))) else .error .reservedField
  | 0x44 => if fld w 0 3 = 0 then .ok (.vcle (r5 w 20) (r5 w 15) (r5 w 10) (BitVec.ofNat 3 (fld w 7 3)) (Ty.ofCode (fld w 3 4))) else .error .reservedField
  | 0x45 => if fld w 0 3 = 0 then .ok (.vsel (r5 w 20) (r5 w 15) (r5 w 10) (BitVec.ofNat 3 (fld w 7 3)) (Ty.ofCode (fld w 3 4))) else .error .reservedField
  | 0x46 => if fld w 10 5 = 0 then .ok (.vrsum (r5 w 20) (r5 w 15) (BitVec.ofNat 3 (fld w 7 3)) (Ty.ofCode (fld w 3 4)) (Rm.ofCode (fld w 0 3))) else .error .reservedField
  | 0x47 => if fld w 0 3 = 0 ∧ fld w 10 5 = 0 then .ok (.vrmin (r5 w 20) (r5 w 15) (BitVec.ofNat 3 (fld w 7 3)) (Ty.ofCode (fld w 3 4))) else .error .reservedField
  | 0x48 => if fld w 0 3 = 0 ∧ fld w 10 5 = 0 then .ok (.vrmax (r5 w 20) (r5 w 15) (BitVec.ofNat 3 (fld w 7 3)) (Ty.ofCode (fld w 3 4))) else .error .reservedField
  | 0x49 => if fld w 0 3 = 0 then .ok (.vperm (r5 w 20) (r5 w 15) (r5 w 10) (BitVec.ofNat 3 (fld w 7 3)) (Ty.ofCode (fld w 3 4))) else .error .reservedField
  | 0x4a => if fld w 0 3 = 0 ∧ fld w 10 5 = 0 then .ok (.vbcast (r5 w 20) (r5 w 15) (BitVec.ofNat 3 (fld w 7 3)) (Ty.ofCode (fld w 3 4))) else .error .reservedField
  | 0x4b => if fld w 0 3 = 0 then .ok (.vslide (r5 w 20) (r5 w 15) (r5 w 10) (BitVec.ofNat 3 (fld w 7 3)) (Ty.ofCode (fld w 3 4))) else .error .reservedField
  | 0x4c => if fld w 0 3 = 0 then .ok (.vgat (r5 w 20) (r5 w 15) (r5 w 10) (BitVec.ofNat 3 (fld w 7 3)) (Ty.ofCode (fld w 3 4))) else .error .reservedField
  | 0x4d => if fld w 0 3 = 0 then .ok (.vsct (r5 w 20) (r5 w 15) (r5 w 10) (BitVec.ofNat 3 (fld w 7 3)) (Ty.ofCode (fld w 3 4))) else .error .reservedField
  | 0x4e => if fld w 0 3 = 0 ∧ fld w 7 3 = 0 then .ok (.vextg (r5 w 20) (r5 w 15) (r5 w 10) (Ty.ofCode (fld w 3 4))) else .error .reservedField
  | 0x4f => if fld w 0 3 = 0 ∧ fld w 7 3 = 0 then .ok (.vinsg (r5 w 20) (r5 w 15) (r5 w 10) (Ty.ofCode (fld w 3 4))) else .error .reservedField
  | 0x50 => if fld w 0 6 = 0 ∧ fld w 10 5 = 0 then .ok (.aget (r5 w 20) (r5 w 15) (BitVec.ofNat 4 (fld w 6 4))) else .error .reservedField
  | 0x51 => if fld w 0 6 = 0 ∧ fld w 10 5 = 0 then .ok (.aput (r5 w 20) (r5 w 15) (BitVec.ofNat 4 (fld w 6 4))) else .error .reservedField
  | 0x52 => if fld w 1 5 = 0 then .ok (.sisect (r5 w 20) (r5 w 15) (r5 w 10) (Ty.ofCode (fld w 6 4)) (flag w 0)) else .error .reservedField
  | 0x53 => if fld w 0 10 = 0 then .ok (.pand (r5 w 20) (r5 w 15) (r5 w 10)) else .error .reservedField
  | 0x54 => if fld w 0 10 = 0 then .ok (.por (r5 w 20) (r5 w 15) (r5 w 10)) else .error .reservedField
  | 0x55 => if fld w 0 10 = 0 then .ok (.pxor (r5 w 20) (r5 w 15) (r5 w 10)) else .error .reservedField
  | 0x56 => if fld w 0 15 = 0 then .ok (.pnot (r5 w 20) (r5 w 15)) else .error .reservedField
  | 0x57 => if fld w 0 15 = 0 then .ok (.pcnt (r5 w 20) (r5 w 15)) else .error .reservedField
  | 0x58 => if fld w 0 3 = 0 ∧ fld w 10 5 = 0 then .ok (.vmov (r5 w 20) (r5 w 15) (BitVec.ofNat 3 (fld w 7 3)) (Ty.ofCode (fld w 3 4))) else .error .reservedField
  | 0x59 => if fld w 15 5 = 0 then .ok (.vmovi (r5 w 20) (BitVec.ofNat 15 (fld w 0 15))) else .error .reservedField
  | 0x5a => if fld w 0 3 = 0 ∧ fld w 10 5 = 0 then .ok (.vpopc (r5 w 20) (r5 w 15) (BitVec.ofNat 3 (fld w 7 3)) (Ty.ofCode (fld w 3 4))) else .error .reservedField
  | 0x5b => if fld w 0 3 = 0 ∧ fld w 10 5 = 0 then .ok (.vclz (r5 w 20) (r5 w 15) (BitVec.ofNat 3 (fld w 7 3)) (Ty.ofCode (fld w 3 4))) else .error .reservedField
  | 0x5c => if fld w 0 3 = 0 then .ok (.vmulh (r5 w 20) (r5 w 15) (r5 w 10) (BitVec.ofNat 3 (fld w 7 3)) (Ty.ofCode (fld w 3 4))) else .error .reservedField
  | 0x60 => if fld w 6 1 = 0 then .ok (.mma (r5 w 20) (r5 w 15) (r5 w 10) (BitVec.ofNat 3 (fld w 7 3)) (flag w 5) (flag w 4) (flag w 3) (Rm.ofCode (fld w 0 3))) else .error .reservedField
  | 0x61 => if fld w 6 1 = 0 then .ok (.mmaz (r5 w 20) (r5 w 15) (r5 w 10) (BitVec.ofNat 3 (fld w 7 3)) (flag w 5) (flag w 4) (flag w 3) (Rm.ofCode (fld w 0 3))) else .error .reservedField
  | 0x62 => if fld w 3 1 = 0 ∧ fld w 5 1 = 0 then .ok (.mmt (r5 w 20) (r5 w 15) (r5 w 10) (BitVec.ofNat 3 (fld w 7 3)) (flag w 6) (flag w 4) (Rm.ofCode (fld w 0 3))) else .error .reservedField
  | 0x63 => if fld w 3 1 = 0 then .ok (.twalk (r5 w 20) (r5 w 15) (r5 w 10) (BitVec.ofNat 3 (fld w 7 3)) (flag w 6) (flag w 5) (flag w 4) (Rm.ofCode (fld w 0 3))) else .error .reservedField
  | 0x64 => if fld w 3 1 = 0 then .ok (.twres (r5 w 20) (r5 w 15) (r5 w 10) (BitVec.ofNat 3 (fld w 7 3)) (flag w 6) (flag w 5) (flag w 4) (Rm.ofCode (fld w 0 3))) else .error .reservedField
  | 0x65 => if fld w 0 25 = 0 then .ok .mcommit else .error .reservedField
  | 0x66 => if fld w 0 10 = 0 ∧ fld w 15 10 = 0 then .ok (.mwait (r5 w 10)) else .error .reservedField
  | 0x67 => if fld w 0 10 = 0 then .ok (.aclr (r5 w 20) (r5 w 15) (r5 w 10)) else .error .reservedField
  | 0x68 => if fld w 0 10 = 0 then .ok (.rset (r5 w 20) (r5 w 15) (r5 w 10)) else .error .reservedField
  | 0x69 => if fld w 0 10 = 0 then .ok (.rpush (r5 w 20) (r5 w 15) (r5 w 10)) else .error .reservedField
  | 0x6a => if fld w 0 10 = 0 ∧ fld w 20 5 = 0 then .ok (.rpop (r5 w 15) (r5 w 10)) else .error .reservedField
  | 0x6b => if fld w 0 7 = 0 ∧ fld w 20 5 = 0 then .ok (.shp (r5 w 15) (r5 w 10) (BitVec.ofNat 3 (fld w 7 3))) else .error .reservedField
  | _ => .error .unassigned

/-- The instruction of a test-access-port code (R449). -/
def decodeTap (w : Nat) : Option Instr :=
  match w with
  | 0xff => some .bypass
  | 0x01 => some .idcode
  | 0x02 => some .samplePreload
  | 0x03 => some .extest
  | 0x20 => some .freeze
  | 0x21 => some .scanout
  | _ => none

/-- The sum of fields, each at its lowest bit. -/
def fields : List (Nat × Nat) → Nat
  | [] => 0
  | (v, lo) :: t => v * 2 ^ lo + fields t

/-- A C-slot word with the lone bit clear (R49). -/
def wordC (op : Nat) (fs : List (Nat × Nat)) : Nat := op * 2 ^ 24 + fields fs
/-- An A-slot word (R49). -/
def wordA (op : Nat) (fs : List (Nat × Nat)) : Nat := op * 2 ^ 25 + fields fs

/-- Word 0 of a C-slot instruction with the lone bit clear (R49). -/
def encodeC (i : Instr) : Option Nat :=
  match i with
  | .nop => some (wordC 0x00 [])
  | .br disp => some (wordC 0x01 [(disp.toNat, 0)])
  | .call disp => some (wordC 0x02 [(disp.toNat, 0)])
  | .jr a => some (wordC 0x03 [(a.toNat, 14)])
  | .callr a => some (wordC 0x04 [(a.toNat, 14)])
  | .ret => some (wordC 0x05 [])
  | .beq a b disp => some (wordC 0x06 [(a.toNat, 19), (b.toNat, 14), (disp.toNat, 0)])
  | .bne a b disp => some (wordC 0x07 [(a.toNat, 19), (b.toNat, 14), (disp.toNat, 0)])
  | .blt a b disp => some (wordC 0x08 [(a.toNat, 19), (b.toNat, 14), (disp.toNat, 0)])
  | .bge a b disp => some (wordC 0x09 [(a.toNat, 19), (b.toNat, 14), (disp.toNat, 0)])
  | .bltn a b disp => some (wordC 0x0a [(a.toNat, 19), (b.toNat, 14), (disp.toNat, 0)])
  | .bgen a b disp => some (wordC 0x0b [(a.toNat, 19), (b.toNat, 14), (disp.toNat, 0)])
  | .loop a len => some (wordC 0x0c [(a.toNat, 19), (len.toNat, 0)])
  | .rep a win len => some (wordC 0x0d [(a.toNat, 19), (win.toNat, 15), (len.toNat, 0)])
  | .trap code => some (wordC 0x0e [(code.toNat, 0)])
  | .eret => some (wordC 0x0f [])
  | .start h a tgt => some (wordC 0x10 [(h.toNat, 20), (a.toNat, 15), (tgt.toNat, 0)])
  | .join mask => some (wordC 0x11 [(mask.toNat, 14)])
  | .hend => some (wordC 0x12 [])
  | .yield => some (wordC 0x13 [])
  | .done a n => some (wordC 0x14 [(a.toNat, 14), (n.toNat, 7)])
  | .tend a => some (wordC 0x15 [(a.toNat, 14)])
  | .wfi => some (wordC 0x16 [])
  | .mfs g sys => some (wordC 0x17 [(g.toNat, 19), (sys.toNat, 0)])
  | .mts g sys => some (wordC 0x18 [(g.toNat, 19), (sys.toNat, 0)])
  | .tlbinv d a n scope => some (wordC 0x19 [(d.toNat, 19), (a.toNat, 14), (n.toNat, 7), (scope.code, 4)])
  | .save d a b => some (wordC 0x1a [(d.toNat, 19), (a.toNat, 14), (b.toNat, 9)])
  | .saveRes d a b => some (wordC 0x1a [(d.toNat, 19), (a.toNat, 14), (b.toNat, 9), (0x1, 0)])
  | .rest d a b => some (wordC 0x1b [(d.toNat, 19), (a.toNat, 14), (b.toNat, 9)])
  | .curf d a b => some (wordC 0x1c [(d.toNat, 19), (a.toNat, 14), (b.toNat, 9)])
  | .spawn d a b => some (wordC 0x1d [(d.toNat, 19), (a.toNat, 14), (b.toNat, 9)])
  | .gang d a b => some (wordC 0x1e [(d.toNat, 19), (a.toNat, 14), (b.toNat, 9)])
  | .tlate d => some (wordC 0x1f [(d.toNat, 19)])
  | .tlateSet d a => some (wordC 0x1f [(d.toNat, 19), (a.toNat, 14), (0x1, 0)])
  | .ldb d a imm => some (wordC 0x20 [(d.toNat, 19), (a.toNat, 14), (imm.toNat, 0)])
  | .ldbn d a imm => some (wordC 0x21 [(d.toNat, 19), (a.toNat, 14), (imm.toNat, 0)])
  | .ldh d a imm => some (wordC 0x22 [(d.toNat, 19), (a.toNat, 14), (imm.toNat, 0)])
  | .ldhn d a imm => some (wordC 0x23 [(d.toNat, 19), (a.toNat, 14), (imm.toNat, 0)])
  | .ldw d a imm => some (wordC 0x24 [(d.toNat, 19), (a.toNat, 14), (imm.toNat, 0)])
  | .ldwn d a imm => some (wordC 0x25 [(d.toNat, 19), (a.toNat, 14), (imm.toNat, 0)])
  | .ldd d a imm => some (wordC 0x26 [(d.toNat, 19), (a.toNat, 14), (imm.toNat, 0)])
  | .ldq d a imm => some (wordC 0x27 [(d.toNat, 19), (a.toNat, 14), (imm.toNat, 0)])
  | .ldv d a imm => some (wordC 0x28 [(d.toNat, 19), (a.toNat, 14), (imm.toNat, 0)])
  | .stb d a imm => some (wordC 0x29 [(d.toNat, 19), (a.toNat, 14), (imm.toNat, 0)])
  | .sth d a imm => some (wordC 0x2a [(d.toNat, 19), (a.toNat, 14), (imm.toNat, 0)])
  | .stw d a imm => some (wordC 0x2b [(d.toNat, 19), (a.toNat, 14), (imm.toNat, 0)])
  | .std d a imm => some (wordC 0x2c [(d.toNat, 19), (a.toNat, 14), (imm.toNat, 0)])
  | .stq d a imm => some (wordC 0x2d [(d.toNat, 19), (a.toNat, 14), (imm.toNat, 0)])
  | .stv d a imm => some (wordC 0x2e [(d.toNat, 19), (a.toNat, 14), (imm.toNat, 0)])
  | .fetch d a n => some (wordC 0x2f [(d.toNat, 19), (a.toNat, 14), (n.toNat, 7)])
  | .rldw d a imm => some (wordC 0x30 [(d.toNat, 19), (a.toNat, 14), (imm.toNat, 0)])
  | .rldd d a imm => some (wordC 0x31 [(d.toNat, 19), (a.toNat, 14), (imm.toNat, 0)])
  | .rstw d a imm => some (wordC 0x32 [(d.toNat, 19), (a.toNat, 14), (imm.toNat, 0)])
  | .rstd d a imm => some (wordC 0x33 [(d.toNat, 19), (a.toNat, 14), (imm.toNat, 0)])
  | .aadd d a b ord scope ty => some (wordC 0x34 [(d.toNat, 19), (a.toNat, 14), (b.toNat, 9), (ord.code, 7), (scope.code, 4), (ty.code, 0)])
  | .aand d a b ord scope ty => some (wordC 0x35 [(d.toNat, 19), (a.toNat, 14), (b.toNat, 9), (ord.code, 7), (scope.code, 4), (ty.code, 0)])
  | .aor d a b ord scope ty => some (wordC 0x36 [(d.toNat, 19), (a.toNat, 14), (b.toNat, 9), (ord.code, 7), (scope.code, 4), (ty.code, 0)])
  | .axor d a b ord scope ty => some (wordC 0x37 [(d.toNat, 19), (a.toNat, 14), (b.toNat, 9), (ord.code, 7), (scope.code, 4), (ty.code, 0)])
  | .amin d a b ord scope ty => some (wordC 0x38 [(d.toNat, 19), (a.toNat, 14), (b.toNat, 9), (ord.code, 7), (scope.code, 4), (ty.code, 0)])
  | .amax d a b ord scope ty => some (wordC 0x39 [(d.toNat, 19), (a.toNat, 14), (b.toNat, 9), (ord.code, 7), (scope.code, 4), (ty.code, 0)])
  | .aswp d a b ord scope ty => some (wordC 0x3a [(d.toNat, 19), (a.toNat, 14), (b.toNat, 9), (ord.code, 7), (scope.code, 4), (ty.code, 0)])
  | .acas d a b ord scope ty => some (wordC 0x3b [(d.toNat, 19), (a.toNat, 14), (b.toNat, 9), (ord.code, 7), (scope.code, 4), (ty.code, 0)])
  | .frd d a => some (wordC 0x3c [(d.toNat, 19), (a.toNat, 14)])
  | .fwr d a opt => some (wordC 0x3d [(d.toNat, 19), (a.toNat, 14), (opt.toNat, 0)])
  | .fence ord scope => some (wordC 0x3e [(ord.code, 7), (scope.code, 4)])
  | .qfence mask => some (wordC 0x3f [(mask.toNat, 0)])
  | .cwb a b scope => some (wordC 0x40 [(a.toNat, 14), (b.toNat, 9), (scope.code, 4)])
  | .cinv a b scope => some (wordC 0x41 [(a.toNat, 14), (b.toNat, 9), (scope.code, 4)])
  | .cwbi a b scope => some (wordC 0x42 [(a.toNat, 14), (b.toNat, 9), (scope.code, 4)])
  | .cpin d a b => some (wordC 0x43 [(d.toNat, 19), (a.toNat, 14), (b.toNat, 9), (0x50, 0)])
  | .cunpin d a b => some (wordC 0x44 [(d.toNat, 19), (a.toNat, 14), (b.toNat, 9), (0x50, 0)])
  | .pref a b scope => some (wordC 0x45 [(a.toNat, 14), (b.toNat, 9), (scope.code, 4)])
  | .cpgo d => some (wordC 0x46 [(d.toNat, 19)])
  | .sacq n => some (wordC 0x47 [(n.toNat, 7)])
  | .srel a n scope => some (wordC 0x48 [(a.toNat, 14), (n.toNat, 7), (scope.code, 4)])
  | .sget d n clear => some (wordC 0x49 [(d.toNat, 19), (n.toNat, 7), (clear.toNat, 0)])
  | .bell a n => some (wordC 0x4a [(a.toNat, 14), (n.toNat, 7)])
  | .bwait n => some (wordC 0x4b [(n.toNat, 7)])
  | .sstep => some (wordC 0x4c [])
  | .xsend d a b => some (wordC 0x4d [(d.toNat, 19), (a.toNat, 14), (b.toNat, 9)])
  | .greq d a b => some (wordC 0x4e [(d.toNat, 19), (a.toNat, 14), (b.toNat, 9)])
  | .collBar a b => some (wordC 0x4f [(a.toNat, 14), (b.toNat, 9)])
  | .collAg a b => some (wordC 0x4f [(a.toNat, 14), (b.toNat, 9), (0x40, 0)])
  | .collRs a b op ty => some (wordC 0x4f [(a.toNat, 14), (b.toNat, 9), (op.toNat, 4), (ty.code, 0), (0x80, 0)])
  | .collA2a a b => some (wordC 0x4f [(a.toNat, 14), (b.toNat, 9), (0xc0, 0)])
  | .glset d a b => some (wordC 0x50 [(d.toNat, 19), (a.toNat, 14), (b.toNat, 9)])
  | .glrun a n => some (wordC 0x51 [(a.toNat, 14), (n.toNat, 0)])
  | .glfoot a n => some (wordC 0x52 [(a.toNat, 14), (n.toNat, 0)])
  | .glfootV a n => some (wordC 0x52 [(a.toNat, 14), (n.toNat, 0), (0x100, 0)])
  | .glnext => some (wordC 0x53 [])
  | .glend d => some (wordC 0x54 [(d.toNat, 19)])
  | .ldbx d a b ord scope sft => some (wordC 0x60 [(d.toNat, 19), (a.toNat, 14), (b.toNat, 9), (ord.code, 7), (scope.code, 4), (sft.toNat, 0)])
  | .ldbnx d a b ord scope sft => some (wordC 0x61 [(d.toNat, 19), (a.toNat, 14), (b.toNat, 9), (ord.code, 7), (scope.code, 4), (sft.toNat, 0)])
  | .ldhx d a b ord scope sft => some (wordC 0x62 [(d.toNat, 19), (a.toNat, 14), (b.toNat, 9), (ord.code, 7), (scope.code, 4), (sft.toNat, 0)])
  | .ldhnx d a b ord scope sft => some (wordC 0x63 [(d.toNat, 19), (a.toNat, 14), (b.toNat, 9), (ord.code, 7), (scope.code, 4), (sft.toNat, 0)])
  | .ldwx d a b ord scope sft => some (wordC 0x64 [(d.toNat, 19), (a.toNat, 14), (b.toNat, 9), (ord.code, 7), (scope.code, 4), (sft.toNat, 0)])
  | .ldwnx d a b ord scope sft => some (wordC 0x65 [(d.toNat, 19), (a.toNat, 14), (b.toNat, 9), (ord.code, 7), (scope.code, 4), (sft.toNat, 0)])
  | .lddx d a b ord scope sft => some (wordC 0x66 [(d.toNat, 19), (a.toNat, 14), (b.toNat, 9), (ord.code, 7), (scope.code, 4), (sft.toNat, 0)])
  | .ldqx d a b ord scope sft => some (wordC 0x67 [(d.toNat, 19), (a.toNat, 14), (b.toNat, 9), (ord.code, 7), (scope.code, 4), (sft.toNat, 0)])
  | .ldvx d a b ord scope sft => some (wordC 0x68 [(d.toNat, 19), (a.toNat, 14), (b.toNat, 9), (ord.code, 7), (scope.code, 4), (sft.toNat, 0)])
  | .stbx d a b ord scope sft => some (wordC 0x69 [(d.toNat, 19), (a.toNat, 14), (b.toNat, 9), (ord.code, 7), (scope.code, 4), (sft.toNat, 0)])
  | .sthx d a b ord scope sft => some (wordC 0x6a [(d.toNat, 19), (a.toNat, 14), (b.toNat, 9), (ord.code, 7), (scope.code, 4), (sft.toNat, 0)])
  | .stwx d a b ord scope sft => some (wordC 0x6b [(d.toNat, 19), (a.toNat, 14), (b.toNat, 9), (ord.code, 7), (scope.code, 4), (sft.toNat, 0)])
  | .stdx d a b ord scope sft => some (wordC 0x6c [(d.toNat, 19), (a.toNat, 14), (b.toNat, 9), (ord.code, 7), (scope.code, 4), (sft.toNat, 0)])
  | .stqx d a b ord scope sft => some (wordC 0x6d [(d.toNat, 19), (a.toNat, 14), (b.toNat, 9), (ord.code, 7), (scope.code, 4), (sft.toNat, 0)])
  | .stvx d a b ord scope sft => some (wordC 0x6e [(d.toNat, 19), (a.toNat, 14), (b.toNat, 9), (ord.code, 7), (scope.code, 4), (sft.toNat, 0)])
  | .nopA => none
  | .add _ _ _ _ => none
  | .sub _ _ _ _ => none
  | .and _ _ _ _ => none
  | .or _ _ _ _ => none
  | .xor _ _ _ _ => none
  | .andn _ _ _ _ => none
  | .shl _ _ _ _ => none
  | .shr _ _ _ _ => none
  | .sra _ _ _ _ => none
  | .mul _ _ _ _ => none
  | .mulh _ _ _ _ => none
  | .div _ _ _ _ => none
  | .rem _ _ _ _ => none
  | .min _ _ _ _ => none
  | .max _ _ _ _ => none
  | .seq _ _ _ _ => none
  | .sne _ _ _ _ => none
  | .slt _ _ _ _ => none
  | .sle _ _ _ _ => none
  | .sel _ _ _ _ => none
  | .popc _ _ _ => none
  | .clz _ _ _ => none
  | .ctz _ _ _ => none
  | .ext _ _ _ => none
  | .rol _ _ _ _ => none
  | .ror _ _ _ _ => none
  | .bswap _ _ _ => none
  | .bext _ _ _ _ => none
  | .bins _ _ _ _ => none
  | .abs _ _ _ => none
  | .movi _ _ => none
  | .lui _ _ _ => none
  | .addi _ _ _ => none
  | .andi _ _ _ => none
  | .ori _ _ _ => none
  | .xori _ _ _ => none
  | .shli _ _ _ => none
  | .shri _ _ _ => none
  | .srai _ _ _ => none
  | .rori _ _ _ => none
  | .muli _ _ _ => none
  | .slti _ _ _ => none
  | .sltin _ _ _ => none
  | .seqi _ _ _ => none
  | .vadd _ _ _ _ _ _ => none
  | .vsub _ _ _ _ _ _ => none
  | .vmul _ _ _ _ _ _ => none
  | .vdiv _ _ _ _ _ _ => none
  | .vmin _ _ _ _ _ => none
  | .vmax _ _ _ _ _ => none
  | .vabs _ _ _ _ => none
  | .vneg _ _ _ _ => none
  | .vfma _ _ _ _ _ _ => none
  | .vfms _ _ _ _ _ _ => none
  | .vsqrt _ _ _ _ _ => none
  | .vand _ _ _ _ _ => none
  | .vor _ _ _ _ _ => none
  | .vxor _ _ _ _ _ => none
  | .vshl _ _ _ _ _ => none
  | .vshr _ _ _ _ _ => none
  | .vcvt _ _ _ _ _ _ => none
  | .vceq _ _ _ _ _ => none
  | .vcne _ _ _ _ _ => none
  | .vclt _ _ _ _ _ => none
  | .vcle _ _ _ _ _ => none
  | .vsel _ _ _ _ _ => none
  | .vrsum _ _ _ _ _ => none
  | .vrmin _ _ _ _ => none
  | .vrmax _ _ _ _ => none
  | .vperm _ _ _ _ _ => none
  | .vbcast _ _ _ _ => none
  | .vslide _ _ _ _ _ => none
  | .vgat _ _ _ _ _ => none
  | .vsct _ _ _ _ _ => none
  | .vextg _ _ _ _ => none
  | .vinsg _ _ _ _ => none
  | .aget _ _ _ => none
  | .aput _ _ _ => none
  | .sisect _ _ _ _ _ => none
  | .pand _ _ _ => none
  | .por _ _ _ => none
  | .pxor _ _ _ => none
  | .pnot _ _ => none
  | .pcnt _ _ => none
  | .vmov _ _ _ _ => none
  | .vmovi _ _ => none
  | .vpopc _ _ _ _ => none
  | .vclz _ _ _ _ => none
  | .vmulh _ _ _ _ _ => none
  | .mma _ _ _ _ _ _ _ _ => none
  | .mmaz _ _ _ _ _ _ _ _ => none
  | .mmt _ _ _ _ _ _ _ => none
  | .twalk _ _ _ _ _ _ _ _ => none
  | .twres _ _ _ _ _ _ _ _ => none
  | .mcommit => none
  | .mwait _ => none
  | .aclr _ _ _ => none
  | .rset _ _ _ => none
  | .rpush _ _ _ => none
  | .rpop _ _ => none
  | .shp _ _ _ => none
  | .tendRetire _ => none
  | .hostQueueRead _ => none
  | .spillRefill _ => none
  | .taskPlace _ => none
  | .granaryProgramPlace _ => none
  | .taskLate _ => none
  | .uncorrectableError _ => none
  | .llcSectorRetire _ _ _ _ => none
  | .domainStall _ => none
  | .writeBufferDrain _ _ => none
  | .homeAccess _ => none
  | .loadDataReturn _ _ => none
  | .fetchComplete _ _ => none
  | .translationWalk _ _ => none
  | .tlbinvComplete _ => none
  | .waySample _ => none
  | .wayChangeComplete _ => none
  | .vectorStart _ => none
  | .vectorComplete _ _ => none
  | .millCommandStart _ => none
  | .millStep _ => none
  | .millCommandRetire _ => none
  | .rpopPerform _ => none
  | .aclrPerform _ => none
  | .walkWave _ => none
  | .copyRow _ => none
  | .copyComplete _ => none
  | .superstepComplete _ => none
  | .xsendEmit _ => none
  | .xsendDelivery _ => none
  | .gatherRequestArrival _ => none
  | .gatherReplyEmit _ => none
  | .gatherReplyDelivery _ => none
  | .doneArrival _ => none
  | .collectiveStart _ => none
  | .collectiveComplete _ => none
  | .packetInject _ => none
  | .packetHop _ _ _ => none
  | .packetSuspect _ _ _ => none
  | .lanternCapture => none
  | .bywayEject => none
  | .packetDeliver _ => none
  | .ackArrival _ => none
  | .linkRetry _ _ => none
  | .routeTableRecompute _ _ => none
  | .routerFail _ => none
  | .trapEntry _ _ => none
  | .interrupt _ => none
  | .curfewStop _ => none
  | .curfewResume _ => none
  | .domainWrite _ _ => none
  | .phaseWrite _ _ => none
  | .waymaskWrite _ _ => none
  | .waylimWrite _ _ => none
  | .lsWrite _ _ _ => none
  | .mstatWrite _ _ => none
  | .copyRegisterWrite _ _ _ _ => none
  | .netctlWrite _ _ => none
  | .pctlWrite _ _ => none
  | .registerWrite _ _ _ => none
  | .doorbell _ => none
  | .attestationReport => none
  | .deviceReset _ => none
  | .droopEvent _ => none
  | .powerThrottle _ => none
  | .senseInterval _ _ _ => none
  | .hostBarAccess _ _ _ _ _ => none
  | .hostAtomicop _ _ _ _ _ => none
  | .pcieCompletion _ _ _ => none
  | .pcieCompletionTimeout _ => none
  | .peerMessage _ _ => none
  | .peerRetransmit _ => none
  | .portLinkChange _ _ => none
  | .dbgctlFrz => none
  | .bypass => none
  | .idcode => none
  | .samplePreload => none
  | .extest => none
  | .freeze => none
  | .scanout => none
  | .saveEngineFinish _ => none
  | .supplyRecovery _ => none
  | .powerWithinLimit _ => none
  | .hostLinkChange _ _ _ => none

/-- Word 1 of an A-slot instruction (R49). -/
def encodeA (i : Instr) : Option Nat :=
  match i with
  | .nop => none
  | .br _ => none
  | .call _ => none
  | .jr _ => none
  | .callr _ => none
  | .ret => none
  | .beq _ _ _ => none
  | .bne _ _ _ => none
  | .blt _ _ _ => none
  | .bge _ _ _ => none
  | .bltn _ _ _ => none
  | .bgen _ _ _ => none
  | .loop _ _ => none
  | .rep _ _ _ => none
  | .trap _ => none
  | .eret => none
  | .start _ _ _ => none
  | .join _ => none
  | .hend => none
  | .yield => none
  | .done _ _ => none
  | .tend _ => none
  | .wfi => none
  | .mfs _ _ => none
  | .mts _ _ => none
  | .tlbinv _ _ _ _ => none
  | .save _ _ _ => none
  | .saveRes _ _ _ => none
  | .rest _ _ _ => none
  | .curf _ _ _ => none
  | .spawn _ _ _ => none
  | .gang _ _ _ => none
  | .tlate _ => none
  | .tlateSet _ _ => none
  | .ldb _ _ _ => none
  | .ldbn _ _ _ => none
  | .ldh _ _ _ => none
  | .ldhn _ _ _ => none
  | .ldw _ _ _ => none
  | .ldwn _ _ _ => none
  | .ldd _ _ _ => none
  | .ldq _ _ _ => none
  | .ldv _ _ _ => none
  | .stb _ _ _ => none
  | .sth _ _ _ => none
  | .stw _ _ _ => none
  | .std _ _ _ => none
  | .stq _ _ _ => none
  | .stv _ _ _ => none
  | .fetch _ _ _ => none
  | .rldw _ _ _ => none
  | .rldd _ _ _ => none
  | .rstw _ _ _ => none
  | .rstd _ _ _ => none
  | .aadd _ _ _ _ _ _ => none
  | .aand _ _ _ _ _ _ => none
  | .aor _ _ _ _ _ _ => none
  | .axor _ _ _ _ _ _ => none
  | .amin _ _ _ _ _ _ => none
  | .amax _ _ _ _ _ _ => none
  | .aswp _ _ _ _ _ _ => none
  | .acas _ _ _ _ _ _ => none
  | .frd _ _ => none
  | .fwr _ _ _ => none
  | .fence _ _ => none
  | .qfence _ => none
  | .cwb _ _ _ => none
  | .cinv _ _ _ => none
  | .cwbi _ _ _ => none
  | .cpin _ _ _ => none
  | .cunpin _ _ _ => none
  | .pref _ _ _ => none
  | .cpgo _ => none
  | .sacq _ => none
  | .srel _ _ _ => none
  | .sget _ _ _ => none
  | .bell _ _ => none
  | .bwait _ => none
  | .sstep => none
  | .xsend _ _ _ => none
  | .greq _ _ _ => none
  | .collBar _ _ => none
  | .collAg _ _ => none
  | .collRs _ _ _ _ => none
  | .collA2a _ _ => none
  | .glset _ _ _ => none
  | .glrun _ _ => none
  | .glfoot _ _ => none
  | .glfootV _ _ => none
  | .glnext => none
  | .glend _ => none
  | .ldbx _ _ _ _ _ _ => none
  | .ldbnx _ _ _ _ _ _ => none
  | .ldhx _ _ _ _ _ _ => none
  | .ldhnx _ _ _ _ _ _ => none
  | .ldwx _ _ _ _ _ _ => none
  | .ldwnx _ _ _ _ _ _ => none
  | .lddx _ _ _ _ _ _ => none
  | .ldqx _ _ _ _ _ _ => none
  | .ldvx _ _ _ _ _ _ => none
  | .stbx _ _ _ _ _ _ => none
  | .sthx _ _ _ _ _ _ => none
  | .stwx _ _ _ _ _ _ => none
  | .stdx _ _ _ _ _ _ => none
  | .stqx _ _ _ _ _ _ => none
  | .stvx _ _ _ _ _ _ => none
  | .nopA => some (wordA 0x00 [])
  | .add d a b ty => some (wordA 0x01 [(d.toNat, 20), (a.toNat, 15), (b.toNat, 10), (ty.code, 6)])
  | .sub d a b ty => some (wordA 0x02 [(d.toNat, 20), (a.toNat, 15), (b.toNat, 10), (ty.code, 6)])
  | .and d a b ty => some (wordA 0x03 [(d.toNat, 20), (a.toNat, 15), (b.toNat, 10), (ty.code, 6)])
  | .or d a b ty => some (wordA 0x04 [(d.toNat, 20), (a.toNat, 15), (b.toNat, 10), (ty.code, 6)])
  | .xor d a b ty => some (wordA 0x05 [(d.toNat, 20), (a.toNat, 15), (b.toNat, 10), (ty.code, 6)])
  | .andn d a b ty => some (wordA 0x06 [(d.toNat, 20), (a.toNat, 15), (b.toNat, 10), (ty.code, 6)])
  | .shl d a b ty => some (wordA 0x07 [(d.toNat, 20), (a.toNat, 15), (b.toNat, 10), (ty.code, 6)])
  | .shr d a b ty => some (wordA 0x08 [(d.toNat, 20), (a.toNat, 15), (b.toNat, 10), (ty.code, 6)])
  | .sra d a b ty => some (wordA 0x09 [(d.toNat, 20), (a.toNat, 15), (b.toNat, 10), (ty.code, 6)])
  | .mul d a b ty => some (wordA 0x0a [(d.toNat, 20), (a.toNat, 15), (b.toNat, 10), (ty.code, 6)])
  | .mulh d a b ty => some (wordA 0x0b [(d.toNat, 20), (a.toNat, 15), (b.toNat, 10), (ty.code, 6)])
  | .div d a b ty => some (wordA 0x0c [(d.toNat, 20), (a.toNat, 15), (b.toNat, 10), (ty.code, 6)])
  | .rem d a b ty => some (wordA 0x0d [(d.toNat, 20), (a.toNat, 15), (b.toNat, 10), (ty.code, 6)])
  | .min d a b ty => some (wordA 0x0e [(d.toNat, 20), (a.toNat, 15), (b.toNat, 10), (ty.code, 6)])
  | .max d a b ty => some (wordA 0x0f [(d.toNat, 20), (a.toNat, 15), (b.toNat, 10), (ty.code, 6)])
  | .seq d a b ty => some (wordA 0x10 [(d.toNat, 20), (a.toNat, 15), (b.toNat, 10), (ty.code, 6)])
  | .sne d a b ty => some (wordA 0x11 [(d.toNat, 20), (a.toNat, 15), (b.toNat, 10), (ty.code, 6)])
  | .slt d a b ty => some (wordA 0x12 [(d.toNat, 20), (a.toNat, 15), (b.toNat, 10), (ty.code, 6)])
  | .sle d a b ty => some (wordA 0x13 [(d.toNat, 20), (a.toNat, 15), (b.toNat, 10), (ty.code, 6)])
  | .sel d a b c => some (wordA 0x14 [(d.toNat, 20), (a.toNat, 15), (b.toNat, 10), (c.toNat, 5)])
  | .popc d a ty => some (wordA 0x15 [(d.toNat, 20), (a.toNat, 15), (ty.code, 6)])
  | .clz d a ty => some (wordA 0x16 [(d.toNat, 20), (a.toNat, 15), (ty.code, 6)])
  | .ctz d a ty => some (wordA 0x17 [(d.toNat, 20), (a.toNat, 15), (ty.code, 6)])
  | .ext d a ty => some (wordA 0x18 [(d.toNat, 20), (a.toNat, 15), (ty.code, 6)])
  | .rol d a b ty => some (wordA 0x19 [(d.toNat, 20), (a.toNat, 15), (b.toNat, 10), (ty.code, 6)])
  | .ror d a b ty => some (wordA 0x1a [(d.toNat, 20), (a.toNat, 15), (b.toNat, 10), (ty.code, 6)])
  | .bswap d a ty => some (wordA 0x1b [(d.toNat, 20), (a.toNat, 15), (ty.code, 6)])
  | .bext d a pos len => some (wordA 0x1c [(d.toNat, 20), (a.toNat, 15), (pos.toNat, 9), (len.toNat, 3)])
  | .bins d a pos len => some (wordA 0x1d [(d.toNat, 20), (a.toNat, 15), (pos.toNat, 9), (len.toNat, 3)])
  | .abs d a ty => some (wordA 0x1e [(d.toNat, 20), (a.toNat, 15), (ty.code, 6)])
  | .movi d imm => some (wordA 0x20 [(d.toNat, 20), (imm.toNat, 0)])
  | .lui d a imm => some (wordA 0x21 [(d.toNat, 20), (a.toNat, 15), (imm.toNat, 0)])
  | .addi d a imm => some (wordA 0x22 [(d.toNat, 20), (a.toNat, 15), (imm.toNat, 0)])
  | .andi d a imm => some (wordA 0x23 [(d.toNat, 20), (a.toNat, 15), (imm.toNat, 0)])
  | .ori d a imm => some (wordA 0x24 [(d.toNat, 20), (a.toNat, 15), (imm.toNat, 0)])
  | .xori d a imm => some (wordA 0x25 [(d.toNat, 20), (a.toNat, 15), (imm.toNat, 0)])
  | .shli d a sh => some (wordA 0x26 [(d.toNat, 20), (a.toNat, 15), (sh.toNat, 0)])
  | .shri d a sh => some (wordA 0x27 [(d.toNat, 20), (a.toNat, 15), (sh.toNat, 0)])
  | .srai d a sh => some (wordA 0x28 [(d.toNat, 20), (a.toNat, 15), (sh.toNat, 0)])
  | .rori d a sh => some (wordA 0x29 [(d.toNat, 20), (a.toNat, 15), (sh.toNat, 0)])
  | .muli d a imm => some (wordA 0x2a [(d.toNat, 20), (a.toNat, 15), (imm.toNat, 0)])
  | .slti d a imm => some (wordA 0x2b [(d.toNat, 20), (a.toNat, 15), (imm.toNat, 0)])
  | .sltin d a imm => some (wordA 0x2c [(d.toNat, 20), (a.toNat, 15), (imm.toNat, 0)])
  | .seqi d a imm => some (wordA 0x2d [(d.toNat, 20), (a.toNat, 15), (imm.toNat, 0)])
  | .vadd d a b pg ty rm => some (wordA 0x30 [(d.toNat, 20), (a.toNat, 15), (b.toNat, 10), (pg.toNat, 7), (ty.code, 3), (rm.code, 0)])
  | .vsub d a b pg ty rm => some (wordA 0x31 [(d.toNat, 20), (a.toNat, 15), (b.toNat, 10), (pg.toNat, 7), (ty.code, 3), (rm.code, 0)])
  | .vmul d a b pg ty rm => some (wordA 0x32 [(d.toNat, 20), (a.toNat, 15), (b.toNat, 10), (pg.toNat, 7), (ty.code, 3), (rm.code, 0)])
  | .vdiv d a b pg ty rm => some (wordA 0x33 [(d.toNat, 20), (a.toNat, 15), (b.toNat, 10), (pg.toNat, 7), (ty.code, 3), (rm.code, 0)])
  | .vmin d a b pg ty => some (wordA 0x34 [(d.toNat, 20), (a.toNat, 15), (b.toNat, 10), (pg.toNat, 7), (ty.code, 3)])
  | .vmax d a b pg ty => some (wordA 0x35 [(d.toNat, 20), (a.toNat, 15), (b.toNat, 10), (pg.toNat, 7), (ty.code, 3)])
  | .vabs d a pg ty => some (wordA 0x36 [(d.toNat, 20), (a.toNat, 15), (pg.toNat, 7), (ty.code, 3)])
  | .vneg d a pg ty => some (wordA 0x37 [(d.toNat, 20), (a.toNat, 15), (pg.toNat, 7), (ty.code, 3)])
  | .vfma d a b pg ty rm => some (wordA 0x38 [(d.toNat, 20), (a.toNat, 15), (b.toNat, 10), (pg.toNat, 7), (ty.code, 3), (rm.code, 0)])
  | .vfms d a b pg ty rm => some (wordA 0x39 [(d.toNat, 20), (a.toNat, 15), (b.toNat, 10), (pg.toNat, 7), (ty.code, 3), (rm.code, 0)])
  | .vsqrt d a pg ty rm => some (wordA 0x3a [(d.toNat, 20), (a.toNat, 15), (pg.toNat, 7), (ty.code, 3), (rm.code, 0)])
  | .vand d a b pg ty => some (wordA 0x3b [(d.toNat, 20), (a.toNat, 15), (b.toNat, 10), (pg.toNat, 7), (ty.code, 3)])
  | .vor d a b pg ty => some (wordA 0x3c [(d.toNat, 20), (a.toNat, 15), (b.toNat, 10), (pg.toNat, 7), (ty.code, 3)])
  | .vxor d a b pg ty => some (wordA 0x3d [(d.toNat, 20), (a.toNat, 15), (b.toNat, 10), (pg.toNat, 7), (ty.code, 3)])
  | .vshl d a b pg ty => some (wordA 0x3e [(d.toNat, 20), (a.toNat, 15), (b.toNat, 10), (pg.toNat, 7), (ty.code, 3)])
  | .vshr d a b pg ty => some (wordA 0x3f [(d.toNat, 20), (a.toNat, 15), (b.toNat, 10), (pg.toNat, 7), (ty.code, 3)])
  | .vcvt d a src pg ty rm => some (wordA 0x40 [(d.toNat, 20), (a.toNat, 15), (src.code, 10), (pg.toNat, 7), (ty.code, 3), (rm.code, 0)])
  | .vceq d a b pg ty => some (wordA 0x41 [(d.toNat, 20), (a.toNat, 15), (b.toNat, 10), (pg.toNat, 7), (ty.code, 3)])
  | .vcne d a b pg ty => some (wordA 0x42 [(d.toNat, 20), (a.toNat, 15), (b.toNat, 10), (pg.toNat, 7), (ty.code, 3)])
  | .vclt d a b pg ty => some (wordA 0x43 [(d.toNat, 20), (a.toNat, 15), (b.toNat, 10), (pg.toNat, 7), (ty.code, 3)])
  | .vcle d a b pg ty => some (wordA 0x44 [(d.toNat, 20), (a.toNat, 15), (b.toNat, 10), (pg.toNat, 7), (ty.code, 3)])
  | .vsel d a b pg ty => some (wordA 0x45 [(d.toNat, 20), (a.toNat, 15), (b.toNat, 10), (pg.toNat, 7), (ty.code, 3)])
  | .vrsum d a pg ty rm => some (wordA 0x46 [(d.toNat, 20), (a.toNat, 15), (pg.toNat, 7), (ty.code, 3), (rm.code, 0)])
  | .vrmin d a pg ty => some (wordA 0x47 [(d.toNat, 20), (a.toNat, 15), (pg.toNat, 7), (ty.code, 3)])
  | .vrmax d a pg ty => some (wordA 0x48 [(d.toNat, 20), (a.toNat, 15), (pg.toNat, 7), (ty.code, 3)])
  | .vperm d a b pg ty => some (wordA 0x49 [(d.toNat, 20), (a.toNat, 15), (b.toNat, 10), (pg.toNat, 7), (ty.code, 3)])
  | .vbcast d a pg ty => some (wordA 0x4a [(d.toNat, 20), (a.toNat, 15), (pg.toNat, 7), (ty.code, 3)])
  | .vslide d a b pg ty => some (wordA 0x4b [(d.toNat, 20), (a.toNat, 15), (b.toNat, 10), (pg.toNat, 7), (ty.code, 3)])
  | .vgat d a b pg ty => some (wordA 0x4c [(d.toNat, 20), (a.toNat, 15), (b.toNat, 10), (pg.toNat, 7), (ty.code, 3)])
  | .vsct d a b pg ty => some (wordA 0x4d [(d.toNat, 20), (a.toNat, 15), (b.toNat, 10), (pg.toNat, 7), (ty.code, 3)])
  | .vextg d a b ty => some (wordA 0x4e [(d.toNat, 20), (a.toNat, 15), (b.toNat, 10), (ty.code, 3)])
  | .vinsg d a b ty => some (wordA 0x4f [(d.toNat, 20), (a.toNat, 15), (b.toNat, 10), (ty.code, 3)])
  | .aget d a row => some (wordA 0x50 [(d.toNat, 20), (a.toNat, 15), (row.toNat, 6)])
  | .aput d a row => some (wordA 0x51 [(d.toNat, 20), (a.toNat, 15), (row.toNat, 6)])
  | .sisect d a b ty opt => some (wordA 0x52 [(d.toNat, 20), (a.toNat, 15), (b.toNat, 10), (ty.code, 6), (opt.toNat, 0)])
  | .pand d a b => some (wordA 0x53 [(d.toNat, 20), (a.toNat, 15), (b.toNat, 10)])
  | .por d a b => some (wordA 0x54 [(d.toNat, 20), (a.toNat, 15), (b.toNat, 10)])
  | .pxor d a b => some (wordA 0x55 [(d.toNat, 20), (a.toNat, 15), (b.toNat, 10)])
  | .pnot d a => some (wordA 0x56 [(d.toNat, 20), (a.toNat, 15)])
  | .pcnt d a => some (wordA 0x57 [(d.toNat, 20), (a.toNat, 15)])
  | .vmov d a pg ty => some (wordA 0x58 [(d.toNat, 20), (a.toNat, 15), (pg.toNat, 7), (ty.code, 3)])
  | .vmovi d imm => some (wordA 0x59 [(d.toNat, 20), (imm.toNat, 0)])
  | .vpopc d a pg ty => some (wordA 0x5a [(d.toNat, 20), (a.toNat, 15), (pg.toNat, 7), (ty.code, 3)])
  | .vclz d a pg ty => some (wordA 0x5b [(d.toNat, 20), (a.toNat, 15), (pg.toNat, 7), (ty.code, 3)])
  | .vmulh d a b pg ty => some (wordA 0x5c [(d.toNat, 20), (a.toNat, 15), (b.toNat, 10), (pg.toNat, 7), (ty.code, 3)])
  | .mma acc k b shape hb ha bk rm => some (wordA 0x60 [(acc.toNat, 20), (k.toNat, 15), (b.toNat, 10), (shape.toNat, 7), (hb.toNat, 5), (ha.toNat, 4), (bk.toNat, 3), (rm.code, 0)])
  | .mmaz acc k b shape hb ha bk rm => some (wordA 0x61 [(acc.toNat, 20), (k.toNat, 15), (b.toNat, 10), (shape.toNat, 7), (hb.toNat, 5), (ha.toNat, 4), (bk.toNat, 3), (rm.code, 0)])
  | .mmt acc k b shape z ha rm => some (wordA 0x62 [(acc.toNat, 20), (k.toNat, 15), (b.toNat, 10), (shape.toNat, 7), (z.toNat, 6), (ha.toNat, 4), (rm.code, 0)])
  | .twalk acc k b shape trp keep ha rm => some (wordA 0x63 [(acc.toNat, 20), (k.toNat, 15), (b.toNat, 10), (shape.toNat, 7), (trp.toNat, 6), (keep.toNat, 5), (ha.toNat, 4), (rm.code, 0)])
  | .twres acc k b shape trp keep ha rm => some (wordA 0x64 [(acc.toNat, 20), (k.toNat, 15), (b.toNat, 10), (shape.toNat, 7), (trp.toNat, 6), (keep.toNat, 5), (ha.toNat, 4), (rm.code, 0)])
  | .mcommit => some (wordA 0x65 [])
  | .mwait b => some (wordA 0x66 [(b.toNat, 10)])
  | .aclr acc k b => some (wordA 0x67 [(acc.toNat, 20), (k.toNat, 15), (b.toNat, 10)])
  | .rset a k b => some (wordA 0x68 [(a.toNat, 20), (k.toNat, 15), (b.toNat, 10)])
  | .rpush d k b => some (wordA 0x69 [(d.toNat, 20), (k.toNat, 15), (b.toNat, 10)])
  | .rpop k b => some (wordA 0x6a [(k.toNat, 15), (b.toNat, 10)])
  | .shp a b shape => some (wordA 0x6b [(a.toNat, 15), (b.toNat, 10), (shape.toNat, 7)])
  | .tendRetire _ => none
  | .hostQueueRead _ => none
  | .spillRefill _ => none
  | .taskPlace _ => none
  | .granaryProgramPlace _ => none
  | .taskLate _ => none
  | .uncorrectableError _ => none
  | .llcSectorRetire _ _ _ _ => none
  | .domainStall _ => none
  | .writeBufferDrain _ _ => none
  | .homeAccess _ => none
  | .loadDataReturn _ _ => none
  | .fetchComplete _ _ => none
  | .translationWalk _ _ => none
  | .tlbinvComplete _ => none
  | .waySample _ => none
  | .wayChangeComplete _ => none
  | .vectorStart _ => none
  | .vectorComplete _ _ => none
  | .millCommandStart _ => none
  | .millStep _ => none
  | .millCommandRetire _ => none
  | .rpopPerform _ => none
  | .aclrPerform _ => none
  | .walkWave _ => none
  | .copyRow _ => none
  | .copyComplete _ => none
  | .superstepComplete _ => none
  | .xsendEmit _ => none
  | .xsendDelivery _ => none
  | .gatherRequestArrival _ => none
  | .gatherReplyEmit _ => none
  | .gatherReplyDelivery _ => none
  | .doneArrival _ => none
  | .collectiveStart _ => none
  | .collectiveComplete _ => none
  | .packetInject _ => none
  | .packetHop _ _ _ => none
  | .packetSuspect _ _ _ => none
  | .lanternCapture => none
  | .bywayEject => none
  | .packetDeliver _ => none
  | .ackArrival _ => none
  | .linkRetry _ _ => none
  | .routeTableRecompute _ _ => none
  | .routerFail _ => none
  | .trapEntry _ _ => none
  | .interrupt _ => none
  | .curfewStop _ => none
  | .curfewResume _ => none
  | .domainWrite _ _ => none
  | .phaseWrite _ _ => none
  | .waymaskWrite _ _ => none
  | .waylimWrite _ _ => none
  | .lsWrite _ _ _ => none
  | .mstatWrite _ _ => none
  | .copyRegisterWrite _ _ _ _ => none
  | .netctlWrite _ _ => none
  | .pctlWrite _ _ => none
  | .registerWrite _ _ _ => none
  | .doorbell _ => none
  | .attestationReport => none
  | .deviceReset _ => none
  | .droopEvent _ => none
  | .powerThrottle _ => none
  | .senseInterval _ _ _ => none
  | .hostBarAccess _ _ _ _ _ => none
  | .hostAtomicop _ _ _ _ _ => none
  | .pcieCompletion _ _ _ => none
  | .pcieCompletionTimeout _ => none
  | .peerMessage _ _ => none
  | .peerRetransmit _ => none
  | .portLinkChange _ _ => none
  | .dbgctlFrz => none
  | .bypass => none
  | .idcode => none
  | .samplePreload => none
  | .extest => none
  | .freeze => none
  | .scanout => none
  | .saveEngineFinish _ => none
  | .supplyRecovery _ => none
  | .powerWithinLimit _ => none
  | .hostLinkChange _ _ _ => none

/-- The code of a test-access-port instruction (R449). -/
def encodeTap (i : Instr) : Option Nat :=
  match i with
  | .nop => none
  | .br _ => none
  | .call _ => none
  | .jr _ => none
  | .callr _ => none
  | .ret => none
  | .beq _ _ _ => none
  | .bne _ _ _ => none
  | .blt _ _ _ => none
  | .bge _ _ _ => none
  | .bltn _ _ _ => none
  | .bgen _ _ _ => none
  | .loop _ _ => none
  | .rep _ _ _ => none
  | .trap _ => none
  | .eret => none
  | .start _ _ _ => none
  | .join _ => none
  | .hend => none
  | .yield => none
  | .done _ _ => none
  | .tend _ => none
  | .wfi => none
  | .mfs _ _ => none
  | .mts _ _ => none
  | .tlbinv _ _ _ _ => none
  | .save _ _ _ => none
  | .saveRes _ _ _ => none
  | .rest _ _ _ => none
  | .curf _ _ _ => none
  | .spawn _ _ _ => none
  | .gang _ _ _ => none
  | .tlate _ => none
  | .tlateSet _ _ => none
  | .ldb _ _ _ => none
  | .ldbn _ _ _ => none
  | .ldh _ _ _ => none
  | .ldhn _ _ _ => none
  | .ldw _ _ _ => none
  | .ldwn _ _ _ => none
  | .ldd _ _ _ => none
  | .ldq _ _ _ => none
  | .ldv _ _ _ => none
  | .stb _ _ _ => none
  | .sth _ _ _ => none
  | .stw _ _ _ => none
  | .std _ _ _ => none
  | .stq _ _ _ => none
  | .stv _ _ _ => none
  | .fetch _ _ _ => none
  | .rldw _ _ _ => none
  | .rldd _ _ _ => none
  | .rstw _ _ _ => none
  | .rstd _ _ _ => none
  | .aadd _ _ _ _ _ _ => none
  | .aand _ _ _ _ _ _ => none
  | .aor _ _ _ _ _ _ => none
  | .axor _ _ _ _ _ _ => none
  | .amin _ _ _ _ _ _ => none
  | .amax _ _ _ _ _ _ => none
  | .aswp _ _ _ _ _ _ => none
  | .acas _ _ _ _ _ _ => none
  | .frd _ _ => none
  | .fwr _ _ _ => none
  | .fence _ _ => none
  | .qfence _ => none
  | .cwb _ _ _ => none
  | .cinv _ _ _ => none
  | .cwbi _ _ _ => none
  | .cpin _ _ _ => none
  | .cunpin _ _ _ => none
  | .pref _ _ _ => none
  | .cpgo _ => none
  | .sacq _ => none
  | .srel _ _ _ => none
  | .sget _ _ _ => none
  | .bell _ _ => none
  | .bwait _ => none
  | .sstep => none
  | .xsend _ _ _ => none
  | .greq _ _ _ => none
  | .collBar _ _ => none
  | .collAg _ _ => none
  | .collRs _ _ _ _ => none
  | .collA2a _ _ => none
  | .glset _ _ _ => none
  | .glrun _ _ => none
  | .glfoot _ _ => none
  | .glfootV _ _ => none
  | .glnext => none
  | .glend _ => none
  | .ldbx _ _ _ _ _ _ => none
  | .ldbnx _ _ _ _ _ _ => none
  | .ldhx _ _ _ _ _ _ => none
  | .ldhnx _ _ _ _ _ _ => none
  | .ldwx _ _ _ _ _ _ => none
  | .ldwnx _ _ _ _ _ _ => none
  | .lddx _ _ _ _ _ _ => none
  | .ldqx _ _ _ _ _ _ => none
  | .ldvx _ _ _ _ _ _ => none
  | .stbx _ _ _ _ _ _ => none
  | .sthx _ _ _ _ _ _ => none
  | .stwx _ _ _ _ _ _ => none
  | .stdx _ _ _ _ _ _ => none
  | .stqx _ _ _ _ _ _ => none
  | .stvx _ _ _ _ _ _ => none
  | .nopA => none
  | .add _ _ _ _ => none
  | .sub _ _ _ _ => none
  | .and _ _ _ _ => none
  | .or _ _ _ _ => none
  | .xor _ _ _ _ => none
  | .andn _ _ _ _ => none
  | .shl _ _ _ _ => none
  | .shr _ _ _ _ => none
  | .sra _ _ _ _ => none
  | .mul _ _ _ _ => none
  | .mulh _ _ _ _ => none
  | .div _ _ _ _ => none
  | .rem _ _ _ _ => none
  | .min _ _ _ _ => none
  | .max _ _ _ _ => none
  | .seq _ _ _ _ => none
  | .sne _ _ _ _ => none
  | .slt _ _ _ _ => none
  | .sle _ _ _ _ => none
  | .sel _ _ _ _ => none
  | .popc _ _ _ => none
  | .clz _ _ _ => none
  | .ctz _ _ _ => none
  | .ext _ _ _ => none
  | .rol _ _ _ _ => none
  | .ror _ _ _ _ => none
  | .bswap _ _ _ => none
  | .bext _ _ _ _ => none
  | .bins _ _ _ _ => none
  | .abs _ _ _ => none
  | .movi _ _ => none
  | .lui _ _ _ => none
  | .addi _ _ _ => none
  | .andi _ _ _ => none
  | .ori _ _ _ => none
  | .xori _ _ _ => none
  | .shli _ _ _ => none
  | .shri _ _ _ => none
  | .srai _ _ _ => none
  | .rori _ _ _ => none
  | .muli _ _ _ => none
  | .slti _ _ _ => none
  | .sltin _ _ _ => none
  | .seqi _ _ _ => none
  | .vadd _ _ _ _ _ _ => none
  | .vsub _ _ _ _ _ _ => none
  | .vmul _ _ _ _ _ _ => none
  | .vdiv _ _ _ _ _ _ => none
  | .vmin _ _ _ _ _ => none
  | .vmax _ _ _ _ _ => none
  | .vabs _ _ _ _ => none
  | .vneg _ _ _ _ => none
  | .vfma _ _ _ _ _ _ => none
  | .vfms _ _ _ _ _ _ => none
  | .vsqrt _ _ _ _ _ => none
  | .vand _ _ _ _ _ => none
  | .vor _ _ _ _ _ => none
  | .vxor _ _ _ _ _ => none
  | .vshl _ _ _ _ _ => none
  | .vshr _ _ _ _ _ => none
  | .vcvt _ _ _ _ _ _ => none
  | .vceq _ _ _ _ _ => none
  | .vcne _ _ _ _ _ => none
  | .vclt _ _ _ _ _ => none
  | .vcle _ _ _ _ _ => none
  | .vsel _ _ _ _ _ => none
  | .vrsum _ _ _ _ _ => none
  | .vrmin _ _ _ _ => none
  | .vrmax _ _ _ _ => none
  | .vperm _ _ _ _ _ => none
  | .vbcast _ _ _ _ => none
  | .vslide _ _ _ _ _ => none
  | .vgat _ _ _ _ _ => none
  | .vsct _ _ _ _ _ => none
  | .vextg _ _ _ _ => none
  | .vinsg _ _ _ _ => none
  | .aget _ _ _ => none
  | .aput _ _ _ => none
  | .sisect _ _ _ _ _ => none
  | .pand _ _ _ => none
  | .por _ _ _ => none
  | .pxor _ _ _ => none
  | .pnot _ _ => none
  | .pcnt _ _ => none
  | .vmov _ _ _ _ => none
  | .vmovi _ _ => none
  | .vpopc _ _ _ _ => none
  | .vclz _ _ _ _ => none
  | .vmulh _ _ _ _ _ => none
  | .mma _ _ _ _ _ _ _ _ => none
  | .mmaz _ _ _ _ _ _ _ _ => none
  | .mmt _ _ _ _ _ _ _ => none
  | .twalk _ _ _ _ _ _ _ _ => none
  | .twres _ _ _ _ _ _ _ _ => none
  | .mcommit => none
  | .mwait _ => none
  | .aclr _ _ _ => none
  | .rset _ _ _ => none
  | .rpush _ _ _ => none
  | .rpop _ _ => none
  | .shp _ _ _ => none
  | .tendRetire _ => none
  | .hostQueueRead _ => none
  | .spillRefill _ => none
  | .taskPlace _ => none
  | .granaryProgramPlace _ => none
  | .taskLate _ => none
  | .uncorrectableError _ => none
  | .llcSectorRetire _ _ _ _ => none
  | .domainStall _ => none
  | .writeBufferDrain _ _ => none
  | .homeAccess _ => none
  | .loadDataReturn _ _ => none
  | .fetchComplete _ _ => none
  | .translationWalk _ _ => none
  | .tlbinvComplete _ => none
  | .waySample _ => none
  | .wayChangeComplete _ => none
  | .vectorStart _ => none
  | .vectorComplete _ _ => none
  | .millCommandStart _ => none
  | .millStep _ => none
  | .millCommandRetire _ => none
  | .rpopPerform _ => none
  | .aclrPerform _ => none
  | .walkWave _ => none
  | .copyRow _ => none
  | .copyComplete _ => none
  | .superstepComplete _ => none
  | .xsendEmit _ => none
  | .xsendDelivery _ => none
  | .gatherRequestArrival _ => none
  | .gatherReplyEmit _ => none
  | .gatherReplyDelivery _ => none
  | .doneArrival _ => none
  | .collectiveStart _ => none
  | .collectiveComplete _ => none
  | .packetInject _ => none
  | .packetHop _ _ _ => none
  | .packetSuspect _ _ _ => none
  | .lanternCapture => none
  | .bywayEject => none
  | .packetDeliver _ => none
  | .ackArrival _ => none
  | .linkRetry _ _ => none
  | .routeTableRecompute _ _ => none
  | .routerFail _ => none
  | .trapEntry _ _ => none
  | .interrupt _ => none
  | .curfewStop _ => none
  | .curfewResume _ => none
  | .domainWrite _ _ => none
  | .phaseWrite _ _ => none
  | .waymaskWrite _ _ => none
  | .waylimWrite _ _ => none
  | .lsWrite _ _ _ => none
  | .mstatWrite _ _ => none
  | .copyRegisterWrite _ _ _ _ => none
  | .netctlWrite _ _ => none
  | .pctlWrite _ _ => none
  | .registerWrite _ _ _ => none
  | .doorbell _ => none
  | .attestationReport => none
  | .deviceReset _ => none
  | .droopEvent _ => none
  | .powerThrottle _ => none
  | .senseInterval _ _ _ => none
  | .hostBarAccess _ _ _ _ _ => none
  | .hostAtomicop _ _ _ _ _ => none
  | .pcieCompletion _ _ _ => none
  | .pcieCompletionTimeout _ => none
  | .peerMessage _ _ => none
  | .peerRetransmit _ => none
  | .portLinkChange _ _ => none
  | .dbgctlFrz => none
  | .bypass => some 0xff
  | .idcode => some 0x01
  | .samplePreload => some 0x02
  | .extest => some 0x03
  | .freeze => some 0x20
  | .scanout => some 0x21
  | .saveEngineFinish _ => none
  | .supplyRecovery _ => none
  | .powerWithinLimit _ => none
  | .hostLinkChange _ _ _ => none

/-- The words of an instruction that stands alone: a lone bundle in the C slot, the C-slot `nop` beside an A-slot
instruction (R62), the code of a test-access-port instruction, and no words for an event. -/
def encode (i : Instr) : List Nat :=
  match encodeC i, encodeA i, encodeTap i with
  | some w, _, _ => [2 ^ 31 + w, 0]
  | none, some w, _ => [0, w]
  | none, none, some w => [w]
  | none, none, none => []

/-- Where an instruction stands: a slot of a bundle, the test access port, or nowhere (an event of the package). -/
inductive Place where
  | c | a | tap | event
  deriving DecidableEq, Repr

/-- Where each instruction stands. -/
def Instr.place (i : Instr) : Place :=
  match i with
  | .nop => .c
  | .br _ => .c
  | .call _ => .c
  | .jr _ => .c
  | .callr _ => .c
  | .ret => .c
  | .beq _ _ _ => .c
  | .bne _ _ _ => .c
  | .blt _ _ _ => .c
  | .bge _ _ _ => .c
  | .bltn _ _ _ => .c
  | .bgen _ _ _ => .c
  | .loop _ _ => .c
  | .rep _ _ _ => .c
  | .trap _ => .c
  | .eret => .c
  | .start _ _ _ => .c
  | .join _ => .c
  | .hend => .c
  | .yield => .c
  | .done _ _ => .c
  | .tend _ => .c
  | .wfi => .c
  | .mfs _ _ => .c
  | .mts _ _ => .c
  | .tlbinv _ _ _ _ => .c
  | .save _ _ _ => .c
  | .saveRes _ _ _ => .c
  | .rest _ _ _ => .c
  | .curf _ _ _ => .c
  | .spawn _ _ _ => .c
  | .gang _ _ _ => .c
  | .tlate _ => .c
  | .tlateSet _ _ => .c
  | .ldb _ _ _ => .c
  | .ldbn _ _ _ => .c
  | .ldh _ _ _ => .c
  | .ldhn _ _ _ => .c
  | .ldw _ _ _ => .c
  | .ldwn _ _ _ => .c
  | .ldd _ _ _ => .c
  | .ldq _ _ _ => .c
  | .ldv _ _ _ => .c
  | .stb _ _ _ => .c
  | .sth _ _ _ => .c
  | .stw _ _ _ => .c
  | .std _ _ _ => .c
  | .stq _ _ _ => .c
  | .stv _ _ _ => .c
  | .fetch _ _ _ => .c
  | .rldw _ _ _ => .c
  | .rldd _ _ _ => .c
  | .rstw _ _ _ => .c
  | .rstd _ _ _ => .c
  | .aadd _ _ _ _ _ _ => .c
  | .aand _ _ _ _ _ _ => .c
  | .aor _ _ _ _ _ _ => .c
  | .axor _ _ _ _ _ _ => .c
  | .amin _ _ _ _ _ _ => .c
  | .amax _ _ _ _ _ _ => .c
  | .aswp _ _ _ _ _ _ => .c
  | .acas _ _ _ _ _ _ => .c
  | .frd _ _ => .c
  | .fwr _ _ _ => .c
  | .fence _ _ => .c
  | .qfence _ => .c
  | .cwb _ _ _ => .c
  | .cinv _ _ _ => .c
  | .cwbi _ _ _ => .c
  | .cpin _ _ _ => .c
  | .cunpin _ _ _ => .c
  | .pref _ _ _ => .c
  | .cpgo _ => .c
  | .sacq _ => .c
  | .srel _ _ _ => .c
  | .sget _ _ _ => .c
  | .bell _ _ => .c
  | .bwait _ => .c
  | .sstep => .c
  | .xsend _ _ _ => .c
  | .greq _ _ _ => .c
  | .collBar _ _ => .c
  | .collAg _ _ => .c
  | .collRs _ _ _ _ => .c
  | .collA2a _ _ => .c
  | .glset _ _ _ => .c
  | .glrun _ _ => .c
  | .glfoot _ _ => .c
  | .glfootV _ _ => .c
  | .glnext => .c
  | .glend _ => .c
  | .ldbx _ _ _ _ _ _ => .c
  | .ldbnx _ _ _ _ _ _ => .c
  | .ldhx _ _ _ _ _ _ => .c
  | .ldhnx _ _ _ _ _ _ => .c
  | .ldwx _ _ _ _ _ _ => .c
  | .ldwnx _ _ _ _ _ _ => .c
  | .lddx _ _ _ _ _ _ => .c
  | .ldqx _ _ _ _ _ _ => .c
  | .ldvx _ _ _ _ _ _ => .c
  | .stbx _ _ _ _ _ _ => .c
  | .sthx _ _ _ _ _ _ => .c
  | .stwx _ _ _ _ _ _ => .c
  | .stdx _ _ _ _ _ _ => .c
  | .stqx _ _ _ _ _ _ => .c
  | .stvx _ _ _ _ _ _ => .c
  | .nopA => .a
  | .add _ _ _ _ => .a
  | .sub _ _ _ _ => .a
  | .and _ _ _ _ => .a
  | .or _ _ _ _ => .a
  | .xor _ _ _ _ => .a
  | .andn _ _ _ _ => .a
  | .shl _ _ _ _ => .a
  | .shr _ _ _ _ => .a
  | .sra _ _ _ _ => .a
  | .mul _ _ _ _ => .a
  | .mulh _ _ _ _ => .a
  | .div _ _ _ _ => .a
  | .rem _ _ _ _ => .a
  | .min _ _ _ _ => .a
  | .max _ _ _ _ => .a
  | .seq _ _ _ _ => .a
  | .sne _ _ _ _ => .a
  | .slt _ _ _ _ => .a
  | .sle _ _ _ _ => .a
  | .sel _ _ _ _ => .a
  | .popc _ _ _ => .a
  | .clz _ _ _ => .a
  | .ctz _ _ _ => .a
  | .ext _ _ _ => .a
  | .rol _ _ _ _ => .a
  | .ror _ _ _ _ => .a
  | .bswap _ _ _ => .a
  | .bext _ _ _ _ => .a
  | .bins _ _ _ _ => .a
  | .abs _ _ _ => .a
  | .movi _ _ => .a
  | .lui _ _ _ => .a
  | .addi _ _ _ => .a
  | .andi _ _ _ => .a
  | .ori _ _ _ => .a
  | .xori _ _ _ => .a
  | .shli _ _ _ => .a
  | .shri _ _ _ => .a
  | .srai _ _ _ => .a
  | .rori _ _ _ => .a
  | .muli _ _ _ => .a
  | .slti _ _ _ => .a
  | .sltin _ _ _ => .a
  | .seqi _ _ _ => .a
  | .vadd _ _ _ _ _ _ => .a
  | .vsub _ _ _ _ _ _ => .a
  | .vmul _ _ _ _ _ _ => .a
  | .vdiv _ _ _ _ _ _ => .a
  | .vmin _ _ _ _ _ => .a
  | .vmax _ _ _ _ _ => .a
  | .vabs _ _ _ _ => .a
  | .vneg _ _ _ _ => .a
  | .vfma _ _ _ _ _ _ => .a
  | .vfms _ _ _ _ _ _ => .a
  | .vsqrt _ _ _ _ _ => .a
  | .vand _ _ _ _ _ => .a
  | .vor _ _ _ _ _ => .a
  | .vxor _ _ _ _ _ => .a
  | .vshl _ _ _ _ _ => .a
  | .vshr _ _ _ _ _ => .a
  | .vcvt _ _ _ _ _ _ => .a
  | .vceq _ _ _ _ _ => .a
  | .vcne _ _ _ _ _ => .a
  | .vclt _ _ _ _ _ => .a
  | .vcle _ _ _ _ _ => .a
  | .vsel _ _ _ _ _ => .a
  | .vrsum _ _ _ _ _ => .a
  | .vrmin _ _ _ _ => .a
  | .vrmax _ _ _ _ => .a
  | .vperm _ _ _ _ _ => .a
  | .vbcast _ _ _ _ => .a
  | .vslide _ _ _ _ _ => .a
  | .vgat _ _ _ _ _ => .a
  | .vsct _ _ _ _ _ => .a
  | .vextg _ _ _ _ => .a
  | .vinsg _ _ _ _ => .a
  | .aget _ _ _ => .a
  | .aput _ _ _ => .a
  | .sisect _ _ _ _ _ => .a
  | .pand _ _ _ => .a
  | .por _ _ _ => .a
  | .pxor _ _ _ => .a
  | .pnot _ _ => .a
  | .pcnt _ _ => .a
  | .vmov _ _ _ _ => .a
  | .vmovi _ _ => .a
  | .vpopc _ _ _ _ => .a
  | .vclz _ _ _ _ => .a
  | .vmulh _ _ _ _ _ => .a
  | .mma _ _ _ _ _ _ _ _ => .a
  | .mmaz _ _ _ _ _ _ _ _ => .a
  | .mmt _ _ _ _ _ _ _ => .a
  | .twalk _ _ _ _ _ _ _ _ => .a
  | .twres _ _ _ _ _ _ _ _ => .a
  | .mcommit => .a
  | .mwait _ => .a
  | .aclr _ _ _ => .a
  | .rset _ _ _ => .a
  | .rpush _ _ _ => .a
  | .rpop _ _ => .a
  | .shp _ _ _ => .a
  | .tendRetire _ => .event
  | .hostQueueRead _ => .event
  | .spillRefill _ => .event
  | .taskPlace _ => .event
  | .granaryProgramPlace _ => .event
  | .taskLate _ => .event
  | .uncorrectableError _ => .event
  | .llcSectorRetire _ _ _ _ => .event
  | .domainStall _ => .event
  | .writeBufferDrain _ _ => .event
  | .homeAccess _ => .event
  | .loadDataReturn _ _ => .event
  | .fetchComplete _ _ => .event
  | .translationWalk _ _ => .event
  | .tlbinvComplete _ => .event
  | .waySample _ => .event
  | .wayChangeComplete _ => .event
  | .vectorStart _ => .event
  | .vectorComplete _ _ => .event
  | .millCommandStart _ => .event
  | .millStep _ => .event
  | .millCommandRetire _ => .event
  | .rpopPerform _ => .event
  | .aclrPerform _ => .event
  | .walkWave _ => .event
  | .copyRow _ => .event
  | .copyComplete _ => .event
  | .superstepComplete _ => .event
  | .xsendEmit _ => .event
  | .xsendDelivery _ => .event
  | .gatherRequestArrival _ => .event
  | .gatherReplyEmit _ => .event
  | .gatherReplyDelivery _ => .event
  | .doneArrival _ => .event
  | .collectiveStart _ => .event
  | .collectiveComplete _ => .event
  | .packetInject _ => .event
  | .packetHop _ _ _ => .event
  | .packetSuspect _ _ _ => .event
  | .lanternCapture => .event
  | .bywayEject => .event
  | .packetDeliver _ => .event
  | .ackArrival _ => .event
  | .linkRetry _ _ => .event
  | .routeTableRecompute _ _ => .event
  | .routerFail _ => .event
  | .trapEntry _ _ => .event
  | .interrupt _ => .event
  | .curfewStop _ => .event
  | .curfewResume _ => .event
  | .domainWrite _ _ => .event
  | .phaseWrite _ _ => .event
  | .waymaskWrite _ _ => .event
  | .waylimWrite _ _ => .event
  | .lsWrite _ _ _ => .event
  | .mstatWrite _ _ => .event
  | .copyRegisterWrite _ _ _ _ => .event
  | .netctlWrite _ _ => .event
  | .pctlWrite _ _ => .event
  | .registerWrite _ _ _ => .event
  | .doorbell _ => .event
  | .attestationReport => .event
  | .deviceReset _ => .event
  | .droopEvent _ => .event
  | .powerThrottle _ => .event
  | .senseInterval _ _ _ => .event
  | .hostBarAccess _ _ _ _ _ => .event
  | .hostAtomicop _ _ _ _ _ => .event
  | .pcieCompletion _ _ _ => .event
  | .pcieCompletionTimeout _ => .event
  | .peerMessage _ _ => .event
  | .peerRetransmit _ => .event
  | .portLinkChange _ _ => .event
  | .dbgctlFrz => .event
  | .bypass => .tap
  | .idcode => .tap
  | .samplePreload => .tap
  | .extest => .tap
  | .freeze => .tap
  | .scanout => .tap
  | .saveEngineFinish _ => .event
  | .supplyRecovery _ => .event
  | .powerWithinLimit _ => .event
  | .hostLinkChange _ _ _ => .event

/-- The register classes that operand fields name (R50). -/
inductive RegClass where
  | g | v | p | tile
  deriving DecidableEq, Repr

/-- One operand register: its class and number, whether the instruction reads it and whether it writes it. -/
structure Operand where
  cls : RegClass
  num : Nat
  reads : Bool
  writes : Bool
  deriving DecidableEq, Repr

namespace Operand

/-- A register that is only read. -/
def rd (c : RegClass) (r : R5) : Operand := ⟨c, r.toNat, true, false⟩
/-- A register that is only written. -/
def wr (c : RegClass) (r : R5) : Operand := ⟨c, r.toNat, false, true⟩
/-- A register that is read and written, whole or in part. -/
def rw (c : RegClass) (r : R5) : Operand := ⟨c, r.toNat, true, true⟩
/-- The governing predicate, none when pg is 0 (R50). -/
def guard (pg : BitVec 3) : List Operand := if pg = 0 then [] else [⟨.p, pg.toNat, true, false⟩]
/-- The index registers of glfoot (R423). -/
def footRegs (a : R5) (n : BitVec 4) : List Operand := (List.range (n.toNat + 1)).map fun k => ⟨.g, a.toNat + k, true, false⟩
/-- The registers of sisect (R228). -/
def sisectOperands (d a b : R5) (o : Bool) : List Operand :=
  [rw .g a, rw .g (a + 1), rw .g b, rw .g (b + 1), rw .g d] ++ (if o then [rw .g (d + 1)] else [])

end Operand

open Operand in
/-- The operand registers of an instruction, implicit destinations included (R46, R95, R213). -/
def Instr.operands (i : Instr) : List Operand :=
  match i with
  | .nop => []
  | .br _ => []
  | .call _ => [wr .g 31]
  | .jr a => [rd .g a]
  | .callr a => [rd .g a] ++ [wr .g 31]
  | .ret => [rd .g 31]
  | .beq a b _ => [rd .g a] ++ [rd .g b]
  | .bne a b _ => [rd .g a] ++ [rd .g b]
  | .blt a b _ => [rd .g a] ++ [rd .g b]
  | .bge a b _ => [rd .g a] ++ [rd .g b]
  | .bltn a b _ => [rd .g a] ++ [rd .g b]
  | .bgen a b _ => [rd .g a] ++ [rd .g b]
  | .loop a _ => [rd .g a]
  | .rep a _ _ => [rd .g a]
  | .trap _ => []
  | .eret => []
  | .start _ a _ => [rd .g a]
  | .join _ => []
  | .hend => []
  | .yield => []
  | .done a _ => [rd .g a]
  | .tend a => [rd .g a]
  | .wfi => []
  | .mfs g _ => [wr .g g]
  | .mts g _ => [rd .g g]
  | .tlbinv d a _ _ => [rd .g d] ++ [rd .g a]
  | .save d a b => [rd .g d] ++ [rd .g a] ++ [rd .g b]
  | .saveRes d a b => [rd .g d] ++ [rd .g a] ++ [rd .g b]
  | .rest d a b => [rd .g d] ++ [rd .g a] ++ [rd .g b]
  | .curf d a b => [rd .g d] ++ [rd .g a] ++ [rd .g b]
  | .spawn d a b => [wr .g d] ++ [rd .g a] ++ [rd .g b]
  | .gang d a b => [wr .g d] ++ [rd .g a] ++ [rd .g b]
  | .tlate d => [wr .g d]
  | .tlateSet d a => [wr .g d] ++ [rd .g a]
  | .ldb d a _ => [wr .g d] ++ [rd .g a]
  | .ldbn d a _ => [wr .g d] ++ [rd .g a]
  | .ldh d a _ => [wr .g d] ++ [rd .g a]
  | .ldhn d a _ => [wr .g d] ++ [rd .g a]
  | .ldw d a _ => [wr .g d] ++ [rd .g a]
  | .ldwn d a _ => [wr .g d] ++ [rd .g a]
  | .ldd d a _ => [wr .g d] ++ [rd .g a]
  | .ldq d a _ => [wr .v d] ++ [rd .g a]
  | .ldv d a _ => [wr .v d] ++ [rd .g a]
  | .stb d a _ => [rd .g d] ++ [rd .g a]
  | .sth d a _ => [rd .g d] ++ [rd .g a]
  | .stw d a _ => [rd .g d] ++ [rd .g a]
  | .std d a _ => [rd .g d] ++ [rd .g a]
  | .stq d a _ => [rd .v d] ++ [rd .g a]
  | .stv d a _ => [rd .v d] ++ [rd .g a]
  | .fetch d a _ => [rd .g d] ++ [rd .g a]
  | .rldw d a _ => [wr .g d] ++ [rd .g a]
  | .rldd d a _ => [wr .g d] ++ [rd .g a]
  | .rstw d a _ => [rd .g d] ++ [rd .g a]
  | .rstd d a _ => [rd .g d] ++ [rd .g a]
  | .aadd d a b _ _ _ => [wr .g d] ++ [rd .g a] ++ [rd .g b]
  | .aand d a b _ _ _ => [wr .g d] ++ [rd .g a] ++ [rd .g b]
  | .aor d a b _ _ _ => [wr .g d] ++ [rd .g a] ++ [rd .g b]
  | .axor d a b _ _ _ => [wr .g d] ++ [rd .g a] ++ [rd .g b]
  | .amin d a b _ _ _ => [wr .g d] ++ [rd .g a] ++ [rd .g b]
  | .amax d a b _ _ _ => [wr .g d] ++ [rd .g a] ++ [rd .g b]
  | .aswp d a b _ _ _ => [wr .g d] ++ [rd .g a] ++ [rd .g b]
  | .acas d a b _ _ _ => [rw .g d] ++ [rd .g a] ++ [rd .g b]
  | .frd d a => [wr .g d] ++ [rd .g a]
  | .fwr d a _ => [rd .g d] ++ [rd .g a]
  | .fence _ _ => []
  | .qfence _ => []
  | .cwb a b _ => [rd .g a] ++ [rd .g b]
  | .cinv a b _ => [rd .g a] ++ [rd .g b]
  | .cwbi a b _ => [rd .g a] ++ [rd .g b]
  | .cpin d a b => [wr .g d] ++ [rd .g a] ++ [rd .g b]
  | .cunpin d a b => [wr .g d] ++ [rd .g a] ++ [rd .g b]
  | .pref a b _ => [rd .g a] ++ [rd .g b]
  | .cpgo d => [wr .g d]
  | .sacq _ => []
  | .srel a _ _ => [rd .g a]
  | .sget d _ _ => [wr .g d]
  | .bell a _ => [rd .g a]
  | .bwait _ => []
  | .sstep => []
  | .xsend d a b => [rd .g d] ++ [rd .g a] ++ [rd .g b]
  | .greq d a b => [rd .g d] ++ [rd .g a] ++ [rd .g b]
  | .collBar a b => [rd .g a] ++ [rd .g b]
  | .collAg a b => [rd .g a] ++ [rd .g b]
  | .collRs a b _ _ => [rd .g a] ++ [rd .g b]
  | .collA2a a b => [rd .g a] ++ [rd .g b]
  | .glset d a b => [rd .g d] ++ [rd .g a] ++ [rd .g b]
  | .glrun a _ => [rd .g a] ++ [wr .g 30]
  | .glfoot a n => footRegs a n ++ [wr .g 30]
  | .glfootV a _ => [rd .v a] ++ [wr .g 30]
  | .glnext => [wr .g 30]
  | .glend d => [wr .g d]
  | .ldbx d a b _ _ _ => [wr .g d] ++ [rd .g a] ++ [rd .g b]
  | .ldbnx d a b _ _ _ => [wr .g d] ++ [rd .g a] ++ [rd .g b]
  | .ldhx d a b _ _ _ => [wr .g d] ++ [rd .g a] ++ [rd .g b]
  | .ldhnx d a b _ _ _ => [wr .g d] ++ [rd .g a] ++ [rd .g b]
  | .ldwx d a b _ _ _ => [wr .g d] ++ [rd .g a] ++ [rd .g b]
  | .ldwnx d a b _ _ _ => [wr .g d] ++ [rd .g a] ++ [rd .g b]
  | .lddx d a b _ _ _ => [wr .g d] ++ [rd .g a] ++ [rd .g b]
  | .ldqx d a b _ _ _ => [wr .v d] ++ [rd .g a] ++ [rd .g b]
  | .ldvx d a b _ _ _ => [wr .v d] ++ [rd .g a] ++ [rd .g b]
  | .stbx d a b _ _ _ => [rd .g d] ++ [rd .g a] ++ [rd .g b]
  | .sthx d a b _ _ _ => [rd .g d] ++ [rd .g a] ++ [rd .g b]
  | .stwx d a b _ _ _ => [rd .g d] ++ [rd .g a] ++ [rd .g b]
  | .stdx d a b _ _ _ => [rd .g d] ++ [rd .g a] ++ [rd .g b]
  | .stqx d a b _ _ _ => [rd .v d] ++ [rd .g a] ++ [rd .g b]
  | .stvx d a b _ _ _ => [rd .v d] ++ [rd .g a] ++ [rd .g b]
  | .nopA => []
  | .add d a b _ => [wr .g d] ++ [rd .g a] ++ [rd .g b]
  | .sub d a b _ => [wr .g d] ++ [rd .g a] ++ [rd .g b]
  | .and d a b _ => [wr .g d] ++ [rd .g a] ++ [rd .g b]
  | .or d a b _ => [wr .g d] ++ [rd .g a] ++ [rd .g b]
  | .xor d a b _ => [wr .g d] ++ [rd .g a] ++ [rd .g b]
  | .andn d a b _ => [wr .g d] ++ [rd .g a] ++ [rd .g b]
  | .shl d a b _ => [wr .g d] ++ [rd .g a] ++ [rd .g b]
  | .shr d a b _ => [wr .g d] ++ [rd .g a] ++ [rd .g b]
  | .sra d a b _ => [wr .g d] ++ [rd .g a] ++ [rd .g b]
  | .mul d a b _ => [wr .g d] ++ [rd .g a] ++ [rd .g b]
  | .mulh d a b _ => [wr .g d] ++ [rd .g a] ++ [rd .g b]
  | .div d a b _ => [wr .g d] ++ [rd .g a] ++ [rd .g b]
  | .rem d a b _ => [wr .g d] ++ [rd .g a] ++ [rd .g b]
  | .min d a b _ => [wr .g d] ++ [rd .g a] ++ [rd .g b]
  | .max d a b _ => [wr .g d] ++ [rd .g a] ++ [rd .g b]
  | .seq d a b _ => [wr .g d] ++ [rd .g a] ++ [rd .g b]
  | .sne d a b _ => [wr .g d] ++ [rd .g a] ++ [rd .g b]
  | .slt d a b _ => [wr .g d] ++ [rd .g a] ++ [rd .g b]
  | .sle d a b _ => [wr .g d] ++ [rd .g a] ++ [rd .g b]
  | .sel d a b c => [wr .g d] ++ [rd .g a] ++ [rd .g b] ++ [rd .g c]
  | .popc d a _ => [wr .g d] ++ [rd .g a]
  | .clz d a _ => [wr .g d] ++ [rd .g a]
  | .ctz d a _ => [wr .g d] ++ [rd .g a]
  | .ext d a _ => [wr .g d] ++ [rd .g a]
  | .rol d a b _ => [wr .g d] ++ [rd .g a] ++ [rd .g b]
  | .ror d a b _ => [wr .g d] ++ [rd .g a] ++ [rd .g b]
  | .bswap d a _ => [wr .g d] ++ [rd .g a]
  | .bext d a _ _ => [wr .g d] ++ [rd .g a]
  | .bins d a _ _ => [rw .g d] ++ [rd .g a]
  | .abs d a _ => [wr .g d] ++ [rd .g a]
  | .movi d _ => [wr .g d]
  | .lui d a _ => [wr .g d] ++ [rd .g a]
  | .addi d a _ => [wr .g d] ++ [rd .g a]
  | .andi d a _ => [wr .g d] ++ [rd .g a]
  | .ori d a _ => [wr .g d] ++ [rd .g a]
  | .xori d a _ => [wr .g d] ++ [rd .g a]
  | .shli d a _ => [wr .g d] ++ [rd .g a]
  | .shri d a _ => [wr .g d] ++ [rd .g a]
  | .srai d a _ => [wr .g d] ++ [rd .g a]
  | .rori d a _ => [wr .g d] ++ [rd .g a]
  | .muli d a _ => [wr .g d] ++ [rd .g a]
  | .slti d a _ => [wr .g d] ++ [rd .g a]
  | .sltin d a _ => [wr .g d] ++ [rd .g a]
  | .seqi d a _ => [wr .g d] ++ [rd .g a]
  | .vadd d a b pg _ _ => [rw .v d] ++ [rd .v a] ++ [rd .v b] ++ guard pg
  | .vsub d a b pg _ _ => [rw .v d] ++ [rd .v a] ++ [rd .v b] ++ guard pg
  | .vmul d a b pg _ _ => [rw .v d] ++ [rd .v a] ++ [rd .v b] ++ guard pg
  | .vdiv d a b pg _ _ => [rw .v d] ++ [rd .v a] ++ [rd .v b] ++ guard pg
  | .vmin d a b pg _ => [rw .v d] ++ [rd .v a] ++ [rd .v b] ++ guard pg
  | .vmax d a b pg _ => [rw .v d] ++ [rd .v a] ++ [rd .v b] ++ guard pg
  | .vabs d a pg _ => [rw .v d] ++ [rd .v a] ++ guard pg
  | .vneg d a pg _ => [rw .v d] ++ [rd .v a] ++ guard pg
  | .vfma d a b pg _ _ => [rw .v d] ++ [rd .v a] ++ [rd .v b] ++ guard pg
  | .vfms d a b pg _ _ => [rw .v d] ++ [rd .v a] ++ [rd .v b] ++ guard pg
  | .vsqrt d a pg _ _ => [rw .v d] ++ [rd .v a] ++ guard pg
  | .vand d a b pg _ => [rw .v d] ++ [rd .v a] ++ [rd .v b] ++ guard pg
  | .vor d a b pg _ => [rw .v d] ++ [rd .v a] ++ [rd .v b] ++ guard pg
  | .vxor d a b pg _ => [rw .v d] ++ [rd .v a] ++ [rd .v b] ++ guard pg
  | .vshl d a b pg _ => [rw .v d] ++ [rd .v a] ++ [rd .v b] ++ guard pg
  | .vshr d a b pg _ => [rw .v d] ++ [rd .v a] ++ [rd .v b] ++ guard pg
  | .vcvt d a _ pg _ _ => [rw .v d] ++ [rd .v a] ++ guard pg
  | .vceq d a b pg _ => [wr .p d] ++ [rd .v a] ++ [rd .v b] ++ guard pg
  | .vcne d a b pg _ => [wr .p d] ++ [rd .v a] ++ [rd .v b] ++ guard pg
  | .vclt d a b pg _ => [wr .p d] ++ [rd .v a] ++ [rd .v b] ++ guard pg
  | .vcle d a b pg _ => [wr .p d] ++ [rd .v a] ++ [rd .v b] ++ guard pg
  | .vsel d a b pg _ => [rw .v d] ++ [rd .v a] ++ [rd .v b] ++ guard pg
  | .vrsum d a pg _ _ => [wr .v d] ++ [rd .v a] ++ guard pg
  | .vrmin d a pg _ => [wr .v d] ++ [rd .v a] ++ guard pg
  | .vrmax d a pg _ => [wr .v d] ++ [rd .v a] ++ guard pg
  | .vperm d a b pg _ => [rw .v d] ++ [rd .v a] ++ [rd .v b] ++ guard pg
  | .vbcast d a pg _ => [rw .v d] ++ [rd .g a] ++ guard pg
  | .vslide d a b pg _ => [rw .v d] ++ [rd .v a] ++ [rd .g b] ++ guard pg
  | .vgat d a b pg _ => [rw .v d] ++ [rd .g a] ++ [rd .v b] ++ guard pg
  | .vsct d a b pg _ => [rd .v d] ++ [rd .g a] ++ [rd .v b] ++ guard pg
  | .vextg d a b _ => [wr .g d] ++ [rd .v a] ++ [rd .g b]
  | .vinsg d a b _ => [rw .v d] ++ [rd .g a] ++ [rd .g b]
  | .aget d a _ => [wr .v d] ++ [rd .tile a]
  | .aput d a _ => [wr .tile d] ++ [rd .v a]
  | .sisect d a b _ opt => sisectOperands d a b opt
  | .pand d a b => [wr .p d] ++ [rd .p a] ++ [rd .p b]
  | .por d a b => [wr .p d] ++ [rd .p a] ++ [rd .p b]
  | .pxor d a b => [wr .p d] ++ [rd .p a] ++ [rd .p b]
  | .pnot d a => [wr .p d] ++ [rd .p a]
  | .pcnt d a => [wr .g d] ++ [rd .p a]
  | .vmov d a pg _ => [rw .v d] ++ [rd .v a] ++ guard pg
  | .vmovi d _ => [wr .v d]
  | .vpopc d a pg _ => [rw .v d] ++ [rd .v a] ++ guard pg
  | .vclz d a pg _ => [rw .v d] ++ [rd .v a] ++ guard pg
  | .vmulh d a b pg _ => [rw .v d] ++ [rd .v a] ++ [rd .v b] ++ guard pg
  | .mma acc _ b _ _ _ bk _ => [wr .tile acc] ++ (if bk then [] else [rd .g b])
  | .mmaz acc _ b _ _ _ bk _ => [wr .tile acc] ++ (if bk then [] else [rd .g b])
  | .mmt acc _ b _ _ _ _ => [wr .tile acc] ++ [rd .g b] ++ [rd .g (b + 1)]
  | .twalk acc _ b _ _ _ _ _ => [wr .tile acc] ++ [rd .g b] ++ [rd .g (b + 1)] ++ [rd .g (b + 2)]
  | .twres acc _ b _ _ _ _ _ => [wr .tile acc] ++ [rd .g b] ++ [rd .g (b + 1)] ++ [rd .g (b + 2)]
  | .mcommit => []
  | .mwait _ => []
  | .aclr acc _ b => [wr .tile acc] ++ [rd .g b]
  | .rset a _ b => [rd .g a] ++ [rd .g b]
  | .rpush d _ b => [wr .g d] ++ [rd .g b]
  | .rpop _ b => [rd .g b]
  | .shp a b _ => [rd .g a] ++ [rd .g b]
  | .tendRetire _ => []
  | .hostQueueRead _ => []
  | .spillRefill _ => []
  | .taskPlace _ => []
  | .granaryProgramPlace _ => []
  | .taskLate _ => []
  | .uncorrectableError _ => []
  | .llcSectorRetire _ _ _ _ => []
  | .domainStall _ => []
  | .writeBufferDrain _ _ => []
  | .homeAccess _ => []
  | .loadDataReturn _ _ => []
  | .fetchComplete _ _ => []
  | .translationWalk _ _ => []
  | .tlbinvComplete _ => []
  | .waySample _ => []
  | .wayChangeComplete _ => []
  | .vectorStart _ => []
  | .vectorComplete _ _ => []
  | .millCommandStart _ => []
  | .millStep _ => []
  | .millCommandRetire _ => []
  | .rpopPerform _ => []
  | .aclrPerform _ => []
  | .walkWave _ => []
  | .copyRow _ => []
  | .copyComplete _ => []
  | .superstepComplete _ => []
  | .xsendEmit _ => []
  | .xsendDelivery _ => []
  | .gatherRequestArrival _ => []
  | .gatherReplyEmit _ => []
  | .gatherReplyDelivery _ => []
  | .doneArrival _ => []
  | .collectiveStart _ => []
  | .collectiveComplete _ => []
  | .packetInject _ => []
  | .packetHop _ _ _ => []
  | .packetSuspect _ _ _ => []
  | .lanternCapture => []
  | .bywayEject => []
  | .packetDeliver _ => []
  | .ackArrival _ => []
  | .linkRetry _ _ => []
  | .routeTableRecompute _ _ => []
  | .routerFail _ => []
  | .trapEntry _ _ => []
  | .interrupt _ => []
  | .curfewStop _ => []
  | .curfewResume _ => []
  | .domainWrite _ _ => []
  | .phaseWrite _ _ => []
  | .waymaskWrite _ _ => []
  | .waylimWrite _ _ => []
  | .lsWrite _ _ _ => []
  | .mstatWrite _ _ => []
  | .copyRegisterWrite _ _ _ _ => []
  | .netctlWrite _ _ => []
  | .pctlWrite _ _ => []
  | .registerWrite _ _ _ => []
  | .doorbell _ => []
  | .attestationReport => []
  | .deviceReset _ => []
  | .droopEvent _ => []
  | .powerThrottle _ => []
  | .senseInterval _ _ _ => []
  | .hostBarAccess _ _ _ _ _ => []
  | .hostAtomicop _ _ _ _ _ => []
  | .pcieCompletion _ _ _ => []
  | .pcieCompletionTimeout _ => []
  | .peerMessage _ _ => []
  | .peerRetransmit _ => []
  | .portLinkChange _ _ => []
  | .dbgctlFrz => []
  | .bypass => []
  | .idcode => []
  | .samplePreload => []
  | .extest => []
  | .freeze => []
  | .scanout => []
  | .saveEngineFinish _ => []
  | .supplyRecovery _ => []
  | .powerWithinLimit _ => []
  | .hostLinkChange _ _ _ => []

/-- The destinations that R46 compares: every written register but g0. -/
def Instr.destinations (i : Instr) : List (RegClass × Nat) :=
  (i.operands.filter fun o => o.writes && !(o.cls == .g && o.num == 0)).map fun o => (o.cls, o.num)

/-- The bundle's slots name one destination (R46). -/
def sameDestination (c a : Instr) : Bool :=
  c.destinations.any fun x => x.1 != .tile && a.destinations.contains x

/-- The renaming of one bundle: a map for each class (R115). -/
structure Renaming where
  g : R5 → R5
  v : R5 → R5
  t : R5 → R5

/-- An instruction with its register fields renamed; implicit registers, predicates and rings are not (R115). -/
def Instr.rename (f : Renaming) (i : Instr) : Instr :=
  match i with
  | .nop => .nop
  | .br disp => .br disp
  | .call disp => .call disp
  | .jr a => .jr (f.g a)
  | .callr a => .callr (f.g a)
  | .ret => .ret
  | .beq a b disp => .beq (f.g a) (f.g b) disp
  | .bne a b disp => .bne (f.g a) (f.g b) disp
  | .blt a b disp => .blt (f.g a) (f.g b) disp
  | .bge a b disp => .bge (f.g a) (f.g b) disp
  | .bltn a b disp => .bltn (f.g a) (f.g b) disp
  | .bgen a b disp => .bgen (f.g a) (f.g b) disp
  | .loop a len => .loop (f.g a) len
  | .rep a win len => .rep (f.g a) win len
  | .trap code => .trap code
  | .eret => .eret
  | .start h a tgt => .start h (f.g a) tgt
  | .join mask => .join mask
  | .hend => .hend
  | .yield => .yield
  | .done a n => .done (f.g a) n
  | .tend a => .tend (f.g a)
  | .wfi => .wfi
  | .mfs g sys => .mfs (f.g g) sys
  | .mts g sys => .mts (f.g g) sys
  | .tlbinv d a n scope => .tlbinv (f.g d) (f.g a) n scope
  | .save d a b => .save (f.g d) (f.g a) (f.g b)
  | .saveRes d a b => .saveRes (f.g d) (f.g a) (f.g b)
  | .rest d a b => .rest (f.g d) (f.g a) (f.g b)
  | .curf d a b => .curf (f.g d) (f.g a) (f.g b)
  | .spawn d a b => .spawn (f.g d) (f.g a) (f.g b)
  | .gang d a b => .gang (f.g d) (f.g a) (f.g b)
  | .tlate d => .tlate (f.g d)
  | .tlateSet d a => .tlateSet (f.g d) (f.g a)
  | .ldb d a imm => .ldb (f.g d) (f.g a) imm
  | .ldbn d a imm => .ldbn (f.g d) (f.g a) imm
  | .ldh d a imm => .ldh (f.g d) (f.g a) imm
  | .ldhn d a imm => .ldhn (f.g d) (f.g a) imm
  | .ldw d a imm => .ldw (f.g d) (f.g a) imm
  | .ldwn d a imm => .ldwn (f.g d) (f.g a) imm
  | .ldd d a imm => .ldd (f.g d) (f.g a) imm
  | .ldq d a imm => .ldq (f.v d) (f.g a) imm
  | .ldv d a imm => .ldv (f.v d) (f.g a) imm
  | .stb d a imm => .stb (f.g d) (f.g a) imm
  | .sth d a imm => .sth (f.g d) (f.g a) imm
  | .stw d a imm => .stw (f.g d) (f.g a) imm
  | .std d a imm => .std (f.g d) (f.g a) imm
  | .stq d a imm => .stq (f.v d) (f.g a) imm
  | .stv d a imm => .stv (f.v d) (f.g a) imm
  | .fetch d a n => .fetch (f.g d) (f.g a) n
  | .rldw d a imm => .rldw (f.g d) (f.g a) imm
  | .rldd d a imm => .rldd (f.g d) (f.g a) imm
  | .rstw d a imm => .rstw (f.g d) (f.g a) imm
  | .rstd d a imm => .rstd (f.g d) (f.g a) imm
  | .aadd d a b ord scope ty => .aadd (f.g d) (f.g a) (f.g b) ord scope ty
  | .aand d a b ord scope ty => .aand (f.g d) (f.g a) (f.g b) ord scope ty
  | .aor d a b ord scope ty => .aor (f.g d) (f.g a) (f.g b) ord scope ty
  | .axor d a b ord scope ty => .axor (f.g d) (f.g a) (f.g b) ord scope ty
  | .amin d a b ord scope ty => .amin (f.g d) (f.g a) (f.g b) ord scope ty
  | .amax d a b ord scope ty => .amax (f.g d) (f.g a) (f.g b) ord scope ty
  | .aswp d a b ord scope ty => .aswp (f.g d) (f.g a) (f.g b) ord scope ty
  | .acas d a b ord scope ty => .acas (f.g d) (f.g a) (f.g b) ord scope ty
  | .frd d a => .frd (f.g d) (f.g a)
  | .fwr d a opt => .fwr (f.g d) (f.g a) opt
  | .fence ord scope => .fence ord scope
  | .qfence mask => .qfence mask
  | .cwb a b scope => .cwb (f.g a) (f.g b) scope
  | .cinv a b scope => .cinv (f.g a) (f.g b) scope
  | .cwbi a b scope => .cwbi (f.g a) (f.g b) scope
  | .cpin d a b => .cpin (f.g d) (f.g a) (f.g b)
  | .cunpin d a b => .cunpin (f.g d) (f.g a) (f.g b)
  | .pref a b scope => .pref (f.g a) (f.g b) scope
  | .cpgo d => .cpgo (f.g d)
  | .sacq n => .sacq n
  | .srel a n scope => .srel (f.g a) n scope
  | .sget d n clear => .sget (f.g d) n clear
  | .bell a n => .bell (f.g a) n
  | .bwait n => .bwait n
  | .sstep => .sstep
  | .xsend d a b => .xsend (f.g d) (f.g a) (f.g b)
  | .greq d a b => .greq (f.g d) (f.g a) (f.g b)
  | .collBar a b => .collBar (f.g a) (f.g b)
  | .collAg a b => .collAg (f.g a) (f.g b)
  | .collRs a b op ty => .collRs (f.g a) (f.g b) op ty
  | .collA2a a b => .collA2a (f.g a) (f.g b)
  | .glset d a b => .glset (f.g d) (f.g a) (f.g b)
  | .glrun a n => .glrun (f.g a) n
  | .glfoot a n => .glfoot (f.g a) n
  | .glfootV a n => .glfootV (f.v a) n
  | .glnext => .glnext
  | .glend d => .glend (f.g d)
  | .ldbx d a b ord scope sft => .ldbx (f.g d) (f.g a) (f.g b) ord scope sft
  | .ldbnx d a b ord scope sft => .ldbnx (f.g d) (f.g a) (f.g b) ord scope sft
  | .ldhx d a b ord scope sft => .ldhx (f.g d) (f.g a) (f.g b) ord scope sft
  | .ldhnx d a b ord scope sft => .ldhnx (f.g d) (f.g a) (f.g b) ord scope sft
  | .ldwx d a b ord scope sft => .ldwx (f.g d) (f.g a) (f.g b) ord scope sft
  | .ldwnx d a b ord scope sft => .ldwnx (f.g d) (f.g a) (f.g b) ord scope sft
  | .lddx d a b ord scope sft => .lddx (f.g d) (f.g a) (f.g b) ord scope sft
  | .ldqx d a b ord scope sft => .ldqx (f.v d) (f.g a) (f.g b) ord scope sft
  | .ldvx d a b ord scope sft => .ldvx (f.v d) (f.g a) (f.g b) ord scope sft
  | .stbx d a b ord scope sft => .stbx (f.g d) (f.g a) (f.g b) ord scope sft
  | .sthx d a b ord scope sft => .sthx (f.g d) (f.g a) (f.g b) ord scope sft
  | .stwx d a b ord scope sft => .stwx (f.g d) (f.g a) (f.g b) ord scope sft
  | .stdx d a b ord scope sft => .stdx (f.g d) (f.g a) (f.g b) ord scope sft
  | .stqx d a b ord scope sft => .stqx (f.v d) (f.g a) (f.g b) ord scope sft
  | .stvx d a b ord scope sft => .stvx (f.v d) (f.g a) (f.g b) ord scope sft
  | .nopA => .nopA
  | .add d a b ty => .add (f.g d) (f.g a) (f.g b) ty
  | .sub d a b ty => .sub (f.g d) (f.g a) (f.g b) ty
  | .and d a b ty => .and (f.g d) (f.g a) (f.g b) ty
  | .or d a b ty => .or (f.g d) (f.g a) (f.g b) ty
  | .xor d a b ty => .xor (f.g d) (f.g a) (f.g b) ty
  | .andn d a b ty => .andn (f.g d) (f.g a) (f.g b) ty
  | .shl d a b ty => .shl (f.g d) (f.g a) (f.g b) ty
  | .shr d a b ty => .shr (f.g d) (f.g a) (f.g b) ty
  | .sra d a b ty => .sra (f.g d) (f.g a) (f.g b) ty
  | .mul d a b ty => .mul (f.g d) (f.g a) (f.g b) ty
  | .mulh d a b ty => .mulh (f.g d) (f.g a) (f.g b) ty
  | .div d a b ty => .div (f.g d) (f.g a) (f.g b) ty
  | .rem d a b ty => .rem (f.g d) (f.g a) (f.g b) ty
  | .min d a b ty => .min (f.g d) (f.g a) (f.g b) ty
  | .max d a b ty => .max (f.g d) (f.g a) (f.g b) ty
  | .seq d a b ty => .seq (f.g d) (f.g a) (f.g b) ty
  | .sne d a b ty => .sne (f.g d) (f.g a) (f.g b) ty
  | .slt d a b ty => .slt (f.g d) (f.g a) (f.g b) ty
  | .sle d a b ty => .sle (f.g d) (f.g a) (f.g b) ty
  | .sel d a b c => .sel (f.g d) (f.g a) (f.g b) (f.g c)
  | .popc d a ty => .popc (f.g d) (f.g a) ty
  | .clz d a ty => .clz (f.g d) (f.g a) ty
  | .ctz d a ty => .ctz (f.g d) (f.g a) ty
  | .ext d a ty => .ext (f.g d) (f.g a) ty
  | .rol d a b ty => .rol (f.g d) (f.g a) (f.g b) ty
  | .ror d a b ty => .ror (f.g d) (f.g a) (f.g b) ty
  | .bswap d a ty => .bswap (f.g d) (f.g a) ty
  | .bext d a pos len => .bext (f.g d) (f.g a) pos len
  | .bins d a pos len => .bins (f.g d) (f.g a) pos len
  | .abs d a ty => .abs (f.g d) (f.g a) ty
  | .movi d imm => .movi (f.g d) imm
  | .lui d a imm => .lui (f.g d) (f.g a) imm
  | .addi d a imm => .addi (f.g d) (f.g a) imm
  | .andi d a imm => .andi (f.g d) (f.g a) imm
  | .ori d a imm => .ori (f.g d) (f.g a) imm
  | .xori d a imm => .xori (f.g d) (f.g a) imm
  | .shli d a sh => .shli (f.g d) (f.g a) sh
  | .shri d a sh => .shri (f.g d) (f.g a) sh
  | .srai d a sh => .srai (f.g d) (f.g a) sh
  | .rori d a sh => .rori (f.g d) (f.g a) sh
  | .muli d a imm => .muli (f.g d) (f.g a) imm
  | .slti d a imm => .slti (f.g d) (f.g a) imm
  | .sltin d a imm => .sltin (f.g d) (f.g a) imm
  | .seqi d a imm => .seqi (f.g d) (f.g a) imm
  | .vadd d a b pg ty rm => .vadd (f.v d) (f.v a) (f.v b) pg ty rm
  | .vsub d a b pg ty rm => .vsub (f.v d) (f.v a) (f.v b) pg ty rm
  | .vmul d a b pg ty rm => .vmul (f.v d) (f.v a) (f.v b) pg ty rm
  | .vdiv d a b pg ty rm => .vdiv (f.v d) (f.v a) (f.v b) pg ty rm
  | .vmin d a b pg ty => .vmin (f.v d) (f.v a) (f.v b) pg ty
  | .vmax d a b pg ty => .vmax (f.v d) (f.v a) (f.v b) pg ty
  | .vabs d a pg ty => .vabs (f.v d) (f.v a) pg ty
  | .vneg d a pg ty => .vneg (f.v d) (f.v a) pg ty
  | .vfma d a b pg ty rm => .vfma (f.v d) (f.v a) (f.v b) pg ty rm
  | .vfms d a b pg ty rm => .vfms (f.v d) (f.v a) (f.v b) pg ty rm
  | .vsqrt d a pg ty rm => .vsqrt (f.v d) (f.v a) pg ty rm
  | .vand d a b pg ty => .vand (f.v d) (f.v a) (f.v b) pg ty
  | .vor d a b pg ty => .vor (f.v d) (f.v a) (f.v b) pg ty
  | .vxor d a b pg ty => .vxor (f.v d) (f.v a) (f.v b) pg ty
  | .vshl d a b pg ty => .vshl (f.v d) (f.v a) (f.v b) pg ty
  | .vshr d a b pg ty => .vshr (f.v d) (f.v a) (f.v b) pg ty
  | .vcvt d a src pg ty rm => .vcvt (f.v d) (f.v a) src pg ty rm
  | .vceq d a b pg ty => .vceq d (f.v a) (f.v b) pg ty
  | .vcne d a b pg ty => .vcne d (f.v a) (f.v b) pg ty
  | .vclt d a b pg ty => .vclt d (f.v a) (f.v b) pg ty
  | .vcle d a b pg ty => .vcle d (f.v a) (f.v b) pg ty
  | .vsel d a b pg ty => .vsel (f.v d) (f.v a) (f.v b) pg ty
  | .vrsum d a pg ty rm => .vrsum (f.v d) (f.v a) pg ty rm
  | .vrmin d a pg ty => .vrmin (f.v d) (f.v a) pg ty
  | .vrmax d a pg ty => .vrmax (f.v d) (f.v a) pg ty
  | .vperm d a b pg ty => .vperm (f.v d) (f.v a) (f.v b) pg ty
  | .vbcast d a pg ty => .vbcast (f.v d) (f.g a) pg ty
  | .vslide d a b pg ty => .vslide (f.v d) (f.v a) (f.g b) pg ty
  | .vgat d a b pg ty => .vgat (f.v d) (f.g a) (f.v b) pg ty
  | .vsct d a b pg ty => .vsct (f.v d) (f.g a) (f.v b) pg ty
  | .vextg d a b ty => .vextg (f.g d) (f.v a) (f.g b) ty
  | .vinsg d a b ty => .vinsg (f.v d) (f.g a) (f.g b) ty
  | .aget d a row => .aget (f.v d) (f.t a) row
  | .aput d a row => .aput (f.t d) (f.v a) row
  | .sisect d a b ty opt => .sisect (f.g d) (f.g a) (f.g b) ty opt
  | .pand d a b => .pand d a b
  | .por d a b => .por d a b
  | .pxor d a b => .pxor d a b
  | .pnot d a => .pnot d a
  | .pcnt d a => .pcnt (f.g d) a
  | .vmov d a pg ty => .vmov (f.v d) (f.v a) pg ty
  | .vmovi d imm => .vmovi (f.v d) imm
  | .vpopc d a pg ty => .vpopc (f.v d) (f.v a) pg ty
  | .vclz d a pg ty => .vclz (f.v d) (f.v a) pg ty
  | .vmulh d a b pg ty => .vmulh (f.v d) (f.v a) (f.v b) pg ty
  | .mma acc k b shape hb ha bk rm => .mma (f.t acc) k (if bk then b else f.g b) shape hb ha bk rm
  | .mmaz acc k b shape hb ha bk rm => .mmaz (f.t acc) k (if bk then b else f.g b) shape hb ha bk rm
  | .mmt acc k b shape z ha rm => .mmt (f.t acc) k (f.g b) shape z ha rm
  | .twalk acc k b shape trp keep ha rm => .twalk (f.t acc) k (f.g b) shape trp keep ha rm
  | .twres acc k b shape trp keep ha rm => .twres (f.t acc) k (f.g b) shape trp keep ha rm
  | .mcommit => .mcommit
  | .mwait b => .mwait b
  | .aclr acc k b => .aclr (f.t acc) k (f.g b)
  | .rset a k b => .rset (f.g a) k (f.g b)
  | .rpush d k b => .rpush (f.g d) k (f.g b)
  | .rpop k b => .rpop k (f.g b)
  | .shp a b shape => .shp (f.g a) (f.g b) shape
  | .tendRetire x0 => .tendRetire x0
  | .hostQueueRead x0 => .hostQueueRead x0
  | .spillRefill x0 => .spillRefill x0
  | .taskPlace x0 => .taskPlace x0
  | .granaryProgramPlace x0 => .granaryProgramPlace x0
  | .taskLate x0 => .taskLate x0
  | .uncorrectableError x0 => .uncorrectableError x0
  | .llcSectorRetire x0 x1 x2 x3 => .llcSectorRetire x0 x1 x2 x3
  | .domainStall x0 => .domainStall x0
  | .writeBufferDrain x0 x1 => .writeBufferDrain x0 x1
  | .homeAccess x0 => .homeAccess x0
  | .loadDataReturn x0 x1 => .loadDataReturn x0 x1
  | .fetchComplete x0 x1 => .fetchComplete x0 x1
  | .translationWalk x0 x1 => .translationWalk x0 x1
  | .tlbinvComplete x0 => .tlbinvComplete x0
  | .waySample x0 => .waySample x0
  | .wayChangeComplete x0 => .wayChangeComplete x0
  | .vectorStart x0 => .vectorStart x0
  | .vectorComplete x0 x1 => .vectorComplete x0 x1
  | .millCommandStart x0 => .millCommandStart x0
  | .millStep x0 => .millStep x0
  | .millCommandRetire x0 => .millCommandRetire x0
  | .rpopPerform x0 => .rpopPerform x0
  | .aclrPerform x0 => .aclrPerform x0
  | .walkWave x0 => .walkWave x0
  | .copyRow x0 => .copyRow x0
  | .copyComplete x0 => .copyComplete x0
  | .superstepComplete x0 => .superstepComplete x0
  | .xsendEmit x0 => .xsendEmit x0
  | .xsendDelivery x0 => .xsendDelivery x0
  | .gatherRequestArrival x0 => .gatherRequestArrival x0
  | .gatherReplyEmit x0 => .gatherReplyEmit x0
  | .gatherReplyDelivery x0 => .gatherReplyDelivery x0
  | .doneArrival x0 => .doneArrival x0
  | .collectiveStart x0 => .collectiveStart x0
  | .collectiveComplete x0 => .collectiveComplete x0
  | .packetInject x0 => .packetInject x0
  | .packetHop x0 x1 x2 => .packetHop x0 x1 x2
  | .packetSuspect x0 x1 x2 => .packetSuspect x0 x1 x2
  | .lanternCapture => .lanternCapture
  | .bywayEject => .bywayEject
  | .packetDeliver x0 => .packetDeliver x0
  | .ackArrival x0 => .ackArrival x0
  | .linkRetry x0 x1 => .linkRetry x0 x1
  | .routeTableRecompute x0 x1 => .routeTableRecompute x0 x1
  | .routerFail x0 => .routerFail x0
  | .trapEntry x0 x1 => .trapEntry x0 x1
  | .interrupt x0 => .interrupt x0
  | .curfewStop x0 => .curfewStop x0
  | .curfewResume x0 => .curfewResume x0
  | .domainWrite x0 x1 => .domainWrite x0 x1
  | .phaseWrite x0 x1 => .phaseWrite x0 x1
  | .waymaskWrite x0 x1 => .waymaskWrite x0 x1
  | .waylimWrite x0 x1 => .waylimWrite x0 x1
  | .lsWrite x0 x1 x2 => .lsWrite x0 x1 x2
  | .mstatWrite x0 x1 => .mstatWrite x0 x1
  | .copyRegisterWrite x0 x1 x2 x3 => .copyRegisterWrite x0 x1 x2 x3
  | .netctlWrite x0 x1 => .netctlWrite x0 x1
  | .pctlWrite x0 x1 => .pctlWrite x0 x1
  | .registerWrite x0 x1 x2 => .registerWrite x0 x1 x2
  | .doorbell x0 => .doorbell x0
  | .attestationReport => .attestationReport
  | .deviceReset x0 => .deviceReset x0
  | .droopEvent x0 => .droopEvent x0
  | .powerThrottle x0 => .powerThrottle x0
  | .senseInterval x0 x1 x2 => .senseInterval x0 x1 x2
  | .hostBarAccess x0 x1 x2 x3 x4 => .hostBarAccess x0 x1 x2 x3 x4
  | .hostAtomicop x0 x1 x2 x3 x4 => .hostAtomicop x0 x1 x2 x3 x4
  | .pcieCompletion x0 x1 x2 => .pcieCompletion x0 x1 x2
  | .pcieCompletionTimeout x0 => .pcieCompletionTimeout x0
  | .peerMessage x0 x1 => .peerMessage x0 x1
  | .peerRetransmit x0 => .peerRetransmit x0
  | .portLinkChange x0 x1 => .portLinkChange x0 x1
  | .dbgctlFrz => .dbgctlFrz
  | .bypass => .bypass
  | .idcode => .idcode
  | .samplePreload => .samplePreload
  | .extest => .extest
  | .freeze => .freeze
  | .scanout => .scanout
  | .saveEngineFinish x0 => .saveEngineFinish x0
  | .supplyRecovery x0 => .supplyRecovery x0
  | .powerWithinLimit x0 => .powerWithinLimit x0
  | .hostLinkChange x0 x1 x2 => .hostLinkChange x0 x1 x2

/-- A decoded bundle: the C-slot instruction, and the A-slot instruction unless the bundle is lone (R44). -/
structure Bundle where
  c : Instr
  a : Option Instr
  deriving DecidableEq, Repr

/-- The instruction, if it passes the checks of WellFormed. -/
def checkWf (i : Instr) : Except DecodeError Instr :=
  match wfError i with
  | none => .ok i
  | some e => .error (.illFormed e)

/-- The bundle of two words (R44, R46, R56), before the restrictions of a Granary core. -/
def decodeBundle (w0 w1 : Nat) : Except DecodeError Bundle :=
  match decodeC w0 with
  | .error e => .error e
  | .ok c =>
    match checkWf c with
    | .error e => .error e
    | .ok c =>
      if flag w0 31 then
        if w1 = 0 then .ok ⟨c, none⟩ else .error .loneWord
      else
        match decodeA w1 with
        | .error e => .error e
        | .ok a =>
          match checkWf a with
          | .error e => .error e
          | .ok a => if sameDestination c a then .error .sameDestination else .ok ⟨c, some a⟩

/-- The instructions that a Granary core does not have (R16, R56). -/
def Instr.notOnGranary (i : Instr) : Bool :=
  match encodeC i, encodeA i with
  | some w, _ =>
    let op := fld w 24 7
    (0x50 ≤ op && op ≤ 0x54) || (0x4C ≤ op && op ≤ 0x4F) ||
      ((op == 0x17 || op == 0x18) && [2, 3, 0x15, 0x16, 0x20, 0x21].contains (fld w 0 12))
  | none, some w =>
    let op := fld w 25 7
    0x30 ≤ op && op ≤ 0x6B
  | none, none => false

/-- The words that a table word of 32 bits stands for: the instruction of the slot it is read in. A table word does not
say its slot. With bit 31 clear the C slot is tried first, with bit 31 set the A slot, and a well-formed reading is taken
before an ill-formed one (DESIGN CHOICE, notes/assumptions/3.md). -/
def decodeTableSlot (w : Nat) : Option Instr :=
  let c := (decodeC w).toOption
  let a := (decodeA w).toOption
  let good : Option Instr → Option Instr := fun o => o.filter fun i => wfError i == none
  if flag w 31 then good a <|> a <|> good c <|> c else good c <|> good a <|> c <|> a

/-- The instruction that the decoder reads from a table word (DESIGN CHOICE, notes/assumptions/3.md). -/
def decodeTableWord (nbits w : Nat) : Option Instr :=
  if nbits = 8 then decodeTap w
  else if nbits = 32 then decodeTableSlot (w % 2 ^ 32)
  else none

end Sys2Proof
end

