-- ==== Sys2Proof/Machine/State.lean ====
section
/-! DEFINITION. The state of the package as plain data, and the state after reset. INVENTORY.md lists each piece with the
rule that names it and its reset value. -/

namespace Sys2Proof.Machine

/-- The reasons a step stops for good. -/
inductive Fault where
  /-- raised by `step` when the next move of the agenda names a core or context that the package does not have. Safe: the
  hardware has no such agent, so it does nothing. -/
  | noSuchAgent
  deriving DecidableEq, Repr

/-- The reasons a step is refused. -/
inductive Refusal where
  /-- raised by `exec` for an instruction whose meaning is not written yet. Safe: nothing can be proved of it. -/
  | notModelled (mnemonic : String)
  deriving DecidableEq, Repr

/-- The cause codes of R396, by name. -/
inductive Cause where
  | illegalEnc | priv | align | page | prot | pcRange | ctrlIntegrity | loopNest | repForm | helperLive | helperRole
  | targetRange | userTrap | scratchRange | atomOp | futFull | futBusy | futForm | wayLeaving | phase | accBusy | ringOwned
  | ringForm | shape | millForm | poison | walkRows | copyForm | copyAddr | semOver | xslot | bellForm | doneTarget | collForm
  | domainForm | tileDown | launchForm | launchFit | launchRole | spillFull | lateForm | glUndeclared | glPartial | glRead
  | glEscape | saveSize | saveState | saveForm | savePage | doubleTrap | coreFail | curfForm | interrupt | copyOverflow
  | domainStall | late | childRange | depthLimit | nodeForm
  deriving DecidableEq, Repr, Inhabited

/-- The sticky arithmetic flags of MSTAT (R92). -/
structure Flags where
  nx : Bool := false
  uf : Bool := false
  ovf : Bool := false
  dz : Bool := false
  nv : Bool := false
  isat : Bool := false
  csat : Bool := false
  nfskip : Bool := false
  deriving DecidableEq, Repr, Inhabited

/-- What a blocked context waits for (R24, R27, R373, R411). -/
inductive Wait where
  | sacq (n : Nat)
  /-- a `sacq` that has its unit, or a `bwait` whose bell has reached 0, until the acquire that it makes at a scope (R147, R314, R335) -/
  | acq (sc : Scope)
  | bwait (n : Nat)
  /-- `frd`, with the operand-log entry of the take -/
  | frd (entry : Nat)
  | join (mask : Nat)
  /-- `mwait n`, with the program counter that its bundle's C slot gives and whether it took a branch -/
  | mwait (n : Nat) (next : PC) (taken : Bool)
  | sstep
  | wfi
  /-- `tend`, until its retirement is complete (R120) -/
  | tend
  deriving DecidableEq, Repr

/-- The state that a halted context returns to (R22). -/
inductive Held where
  | ready | stalled
  | blocked (w : Wait)
  | delegated
  deriving DecidableEq, Repr

/-- The five states of a context, with the two reasons of a halt (R22). -/
inductive Run where
  | free | ready | stalled
  | blocked (w : Wait)
  /-- halted by a stop, with the state it returns to -/
  | halted (h : Held)
  /-- halted by delegation (R393) -/
  | delegated
  deriving DecidableEq, Repr, Inhabited

/-- LS (R110). -/
structure Ls where
  sdep : Nat := 0
  ldep : Nat := 0
  rot : Nat := 0
  win : Nat := 0
  held : Bool := false
  rep : Bool := false
  act : Bool := false
  len : Nat := 0
  start : PC := 0
  deriving DecidableEq, Repr, Inhabited

/-- TRAPCAUSE (R389). -/
structure TrapCause where
  info : BitVec 32 := 0
  logix : Nat := 0
  sel : Nat := 0
  inh : Bool := false
  skip : Bool := false
  ppriv : Bool := false
  after : Bool := false
  code : Nat := 0
  deriving DecidableEq, Repr, Inhabited

/-- A fault detected after issue that waits for delivery (R391). -/
structure Report where
  cause : Cause
  info : BitVec 32 := 0
  /-- the operand-log entry, for a fault that has one -/
  entry : Option Nat := none
  /-- the program-order stamp of the instruction -/
  stamp : Nat := 0
  /-- the fault belongs to the steps of `tend`, which issues again (R120) -/
  ofTend : Bool := false
  deriving DecidableEq, Repr, Inhabited

/-- The copy registers of a context (R297 to R302). -/
structure CopyRegs where
  src : Word := 0
  dst : Word := 0
  pad : Word := 0
  /-- slots 0 to 3 of CPSHAPE, without DIM -/
  shape : Tab Word := []
  strs : Tab Word := []
  strd : Tab Word := []
  /-- the slot that the last write named -/
  shapeDim : Nat := 0
  strsDim : Nat := 0
  strdDim : Nat := 0
  fmt : Word := 0x22
  sem : Word := 0
  deriving DecidableEq, Repr, Inhabited

/-- A context (R19, R22). -/
structure Ctx where
  g : Tab Word := []
  p : Tab Word := []
  v : Tab VWord := []
  lc : Word := 0
  ls : Ls := {}
  pc : PC := 0
  run : Run := .free
  /-- supervisor privilege (R57) -/
  sup : Bool := false
  cause : TrapCause := {}
  trapPc : PC := 0
  cp : CopyRegs := {}
  reports : List Report := []
  /-- the handlers that run, the innermost first, each with the stamp of its first instruction (R391) -/
  handler : List Nat := []
  /-- contexts that were ready at a `yield`: those that have not issued since, and those that have stayed ready (R121) -/
  yieldFor : List Nat := []
  yieldStay : List Nat := []
  /-- the EXIT value of a `tend`, and how far it is: 1 once it has issued, then 3 and 4 after those steps of R27 -/
  exit : Word := 0
  tendStep : Nat := 0
  /-- the stamp at which a waiting bundle was first tried, or that of a `tend` (R27, R177, R253) -/
  since : Option Nat := none
  deriving DecidableEq, Repr, Inhabited

/-- The Gleaner of a core (R415 to R425). -/
structure Gleaner where
  own : Nat := 15
  decl : Bool := false
  run : Bool := false
  foot : Bool := false
  idx : Nat := 0
  base : Nat := 0
  ncell : Nat := 0
  csz : Nat := 0
  map : Nat := 0
  pbase : Nat := 0
  plen : Nat := 0
  start : PC := 0
  last : PC := 0
  /-- the declared cells of the iteration with their cover bits -/
  cover : List (Nat × Bool) := []
  skips : Nat := 0
  supp : Nat := 0
  /-- a trap has suspended the checks (R430) -/
  suspended : Bool := false
  deriving DecidableEq, Repr, Inhabited

/-- One sector request of a memory operation (R158). -/
structure Part where
  /-- the virtual address of its first byte -/
  va : Nat
  /-- its physical address -/
  pa : Nat
  /-- its offset in the operation's data and its length in bytes -/
  off : Nat
  n : Nat
  attrC : Bool := false
  attrW : Bool := true
  attrR : Bool := false
  /-- asked of a home -/
  sent : Bool := false
  /-- the line that comes back enters the caches (R191; DESIGN CHOICE, notes/assumptions/9.md) -/
  keep : Bool := true
  /-- bytes of the sector have left the cluster for the home since: the piece is asked again when its answer comes
  (R142, R143; DEDUCED, notes/assumptions/44.md) -/
  again : Bool := false
  /-- the bytes or completion that came back -/
  got : Option (List Byte) := none
  deriving DecidableEq, Repr, Inhabited

/-- Where an operation stands. -/
inductive OpStage where
  /-- waits for a translation (R135, R402) -/
  | walk
  /-- translated, with requests outstanding -/
  | wait
  /-- performed at home; waits for a parked value (frd) -/
  | parked
  deriving DecidableEq, Repr, Inhabited

/-- An outstanding memory operation: entries 0 to 63 of the operand log, or an entry of the fetch table (R166, R397). -/
structure Op where
  ctx : Nat := 0
  pc : PC := 0
  word : Nat := 0
  sup : Bool := false
  stamp : Nat := 0
  instr : Instr := .nop
  /-- the register values read at issue, in field order a, b, d (R397) -/
  vals : List Word := []
  /-- the effective address and the bytes it covers -/
  ea : Word := 0
  size : Nat := 0
  /-- the bytes a store writes -/
  data : List Byte := []
  stage : OpStage := .walk
  parts : List Part := []
  flt : Option Cause := none
  faddr : Word := 0
  info : BitVec 32 := 0
  prog : Nat := 0
  /-- the Gleaner as it stood in the iteration of a body's store (R425, R427) -/
  cover : Option Gleaner := none
  /-- an `eret` has performed it again, and its context issues nothing until it is answered (R399) -/
  replayed : Bool := false
  deriving DecidableEq, Repr, Inhabited

/-- A write-buffer entry: bytes of one 32-byte sector (R142). -/
structure WbEntry where
  bank : Nat
  /-- physical address divided by 32 -/
  sector : Nat
  /-- the page has C = 1, and its W bit -/
  cached : Bool
  wpage : Bool
  /-- byte offset to the byte, the context that stored it and that store's stamp -/
  bytes : Tab (Byte × Nat × Nat)
  /-- the stores that a later store of the entry has written over: byte offset, context and stamp (R149, R186, R243) -/
  hid : List (Nat × Nat × Nat) := []
  deriving DecidableEq, Repr, Inhabited

/-- A line of L1 or of the cluster cache part; lists of lines are in order of use, latest first (R143, R144). -/
structure Line where
  /-- physical address divided by 32 -/
  addr : Nat
  /-- the page has W = 1 -/
  wpage : Bool
  /-- valid bytes, each with its dirty bit -/
  bytes : Tab (Byte × Bool)
  /-- logical cores whose writes the line holds (R144) -/
  cores : List Nat := []
  /-- it holds an uncorrectable error (R413) -/
  bad : Bool := false
  deriving DecidableEq, Repr, Inhabited

/-- A ring descriptor (R241). -/
structure Ring where
  base : Nat
  slotb : Nat
  nslot : Nat
  guard : Bool
  tail : Nat := 0
  fill : Nat := 0
  taken : Nat := 0
  deriving DecidableEq, Repr, Inhabited

/-- A shape record (R246). -/
structure Shape where
  m : Nat := 0
  n : Nat := 0
  ka : Nat := 0
  kb : Nat := 0
  astr : Nat := 0
  bstr : Nat := 0
  deriving DecidableEq, Repr, Inhabited

/-- A semaphore with its scope mark (R197, R313). -/
structure Sem where
  count : Nat := 0
  xf : Bool := false
  ov : Bool := false
  dev : Bool := false
  deriving DecidableEq, Repr, Inhabited

/-- A bell (R332). -/
structure Bell where
  count : Nat := 0
  tgt : Nat := 0
  armed : Bool := false
  scope : Scope := .ctx
  guard : Bool := false
  mbase : Nat := 0
  mcnt : Nat := 0
  cmask : Nat := 0
  deriving DecidableEq, Repr, Inhabited

/-- MSTAT (R92, R260); QHALT is read from the queue hold. -/
structure Mstat where
  rm : Nat := 1
  fl : Flags := {}
  pmask : List Nat := []
  poison : Bool := false
  abort : Bool := false
  kdone : Nat := 0
  deriving DecidableEq, Repr, Inhabited

/-- What a started Mill command has sampled and done (R249, R257, R277). -/
structure MillRun where
  fmtA : Word := 0
  fmtB : Word := 0
  sclA : Word := 0
  sclB : Word := 0
  rm : Rm := .rne
  /-- the lut4 codebooks, read at the start (R73) -/
  bookA : List Nat := []
  bookB : List Nat := []
  /-- that read met an uncorrectable error (R73, R413) -/
  bookBad : Bool := false
  slotA : Nat := 0
  slotB : Nat := 0
  /-- every step of the command is done -/
  finished : Bool := false
  waves : Nat := 0
  /-- the walk steps taken of the wave in progress, and the 64 bits of each record as the wave's start read them (R291, R292) -/
  steps : Nat := 0
  recs : List Nat := []
  /-- the records of invalid rows that its first step wrote: row, the bits before and the bits written (R276, R288) -/
  undo : List (Nat × Nat × Nat) := []
  faulted : List Nat := []
  /-- a walk that has paused keeps its slot (R286) -/
  paused : Bool := false
  /-- stopped by an uncorrectable error: the command counts as retired, and its entry stays until the return from the trap (R261) -/
  aborted : Bool := false
  deriving DecidableEq, Repr, Inhabited

/-- A write of an ORD 0 copy on its way: the copy-order index of its element, the pieces of its destination, the value, and the flags that
its conversion raised (R307). -/
structure LateWrite where
  ix : Nat
  dst : List Part
  v : Nat
  fl : Flags := {}
  deriving DecidableEq, Repr, Inhabited

/-- What a started copy has done (R303 to R311). -/
structure CopyRun where
  regs : CopyRegs := {}
  tid : Nat := 0
  rm : Rm := .rne
  /-- the converted bytes of a compressed copy not yet written, the bytes written and the tiles written (R308) -/
  stream : List Byte := []
  written : Nat := 0
  tiles : Nat := 0
  /-- state, index and refused size for the status record (R309 to R311, R334) -/
  state : Nat := 0
  index : Nat := 0
  refused : Nat := 0
  bell : Option Nat := none
  rowsDone : Bool := false
  /-- an element was written to a translated page (R197) -/
  dev : Bool := false
  /-- the writes of an ORD 0 copy that have not arrived (R307) -/
  late : List LateWrite := []
  deriving DecidableEq, Repr, Inhabited

/-- An entry of an engine queue (R205, R236, R296, R328, R397). -/
structure Cmd where
  /-- the entry's number i in its queue -/
  idx : Nat := 0
  ctx : Nat := 0
  pc : PC := 0
  word : Nat := 0
  slotA : Bool := true
  sup : Bool := false
  stamp : Nat := 0
  instr : Instr := .nopA
  /-- register values carried, in field order a, b, d and any further (R397) -/
  vals : List Word := []
  /-- the governing predicate's value -/
  pred : Word := 0
  started : Bool := false
  /-- the lane group that holds a started vector instruction -/
  group : Nat := 0
  flt : Option Cause := none
  faddr : Word := 0
  info : BitVec 32 := 0
  prog : Nat := 0
  fl : Flags := {}
  shape : Shape := {}
  batch : Nat := 0
  mill : MillRun := {}
  copy : CopyRun := {}
  /-- the slot entry and destination cluster of a send, or the gathering of a collective -/
  slot : Nat := 0
  dst : Nat := 0
  deriving DecidableEq, Repr, Inhabited

/-- A command that owns accumulator tiles (R253). -/
structure Owner where
  stamp : Nat
  first : Nat
  count : Nat
  batch : Nat
  retired : Bool := false
  deriving DecidableEq, Repr, Inhabited

/-- A core of a cluster (numbers 0 to 3,071) or of a Granary (3,072 to 3,199), R15 to R19. -/
structure Core where
  ctxs : Tab Ctx := []
  last : Nat := 10
  /-- row r of tile t is entry 16t + r (R225, R251) -/
  tiles : Tab VWord := []
  owners : List Owner := []
  rings : Tab Ring := []
  shapes : Tab Shape := []
  sems : Tab Sem := []
  bells : Tab Bell := []
  mstat : Mstat := {}
  fmta : Word := 9
  fmtb : Word := 9
  scla : Word := 0
  sclb : Word := 0
  trapvec : Word := 0
  gl : Gleaner := {}
  wb : List WbEntry := []
  l1 : List Line := []
  ops : Tab Op := []
  fetches : Tab Op := []
  vq : List Cmd := []
  mq : List Cmd := []
  cq : List Cmd := []
  xq : List Cmd := []
  /-- by queue, 0 to 3 as in R397, the entry number after the one taken last -/
  qNext : Tab Nat := []
  openBatch : Nat := 0
  closed : List Nat := []
  tid : Nat := 0
  /-- queue q (0 vector, 1 Mill, 2 Carter, 3 exchange) is held by this context's fault -/
  holds : Tab Nat := []
  /-- the loop buffer: its owner, the first body address and the captured bundles (R116) -/
  loopBuf : Option (Nat × PC × List (Nat × Nat)) := none
  irq : List Nat := []
  /-- the ticket of the task the core runs -/
  task : Option Nat := none
  group : Nat := 0
  rank : Nat := 0
  /-- the partition of the last task placed on the core (R28) -/
  lastPart : Option Nat := none
  sent : Nat := 0
  recv : Nat := 0
  /-- write-backs and drained writes not yet performed at their homes -/
  wbOut : Nat := 0
  failed : Bool := false
  /-- the core has been halted and saved (R411) -/
  saved : Bool := false
  deriving DecidableEq, Repr, Inhabited

/-- A TLB entry: page base and size in bytes, physical base and attributes (R135, R402). -/
structure TlbEntry where
  vbase : Nat
  size : Nat
  pbase : Nat
  u : Bool
  repl : Bool
  c : Bool
  w : Bool
  deriving DecidableEq, Repr, Inhabited

/-- The carve-out of a cluster's memory (R149 to R153). -/
structure Ways where
  /-- scratch ways now -/
  s : Nat := 8
  tgt : Nat := 8
  /-- the target of the change in progress, and the copies it waits for: core number and TID -/
  change : Option Nat := none
  waits : List (Nat × Nat) := []
  /-- the lines of the ways that join the scratch part are on their way to their homes (R153) -/
  joining : Bool := false
  auto : Bool := true
  ivl : Nat := 20
  max : Nat := 8
  min : Nat := 8
  /-- sampling counters A, L and G, and the shadow tags by set -/
  a : Nat := 0
  l : Nat := 0
  g : Nat := 0
  shadow : Tab Nat := []
  deriving DecidableEq, Repr, Inhabited

/-- DOMAIN (R36). -/
structure Domain where
  level : Nat := 0
  /-- bit L: the level-L domain is bulk-synchronous -/
  mode : Nat := 0
  id : Tab Nat := []
  deriving DecidableEq, Repr, Inhabited

/-- PHASE (R318). -/
structure Phase where
  xp : Bool := false
  cur : Nat := 0
  nent : Nat := 0
  tbl : Nat := 0
  gerr : Bool := false
  terr : Bool := false
  xcol : Bool := false
  held : Option (Nat × Nat) := none
  /-- commands pushed since the exchange phase began have this stamp or a later one (R321) -/
  begun : Nat := 0
  deriving DecidableEq, Repr, Inhabited

/-- An entry of the slot table in use (R324). -/
structure SlotEntry where
  dst : Nat
  kind : Nat
  beats : Nat
  slot : Nat
  taken : Bool := false
  /-- the beats of the packet that has left in it, zero before -/
  sent : Nat := 0
  deriving DecidableEq, Repr, Inhabited

/-- A packet of the exchange lane that has been emitted (R327 to R331). -/
structure LanePkt where
  src : Nat
  dst : Nat
  /-- a request, a reply, or neither (a send) -/
  request : Bool := false
  reply : Bool := false
  /-- the sending context, by core number and context, and the stamp of its send -/
  core : Nat
  ctx : Nat
  stamp : Nat
  slot : Nat
  /-- destination offset of a send; LAND and OBASE of a request -/
  off : Nat
  obase : Nat := 0
  esz : Nat := 0
  data : List Byte
  /-- elements that the owner replaced by zero -/
  zeros : Nat := 0
  deriving DecidableEq, Repr, Inhabited

/-- A gather request that an owner keeps, with the values it took when its phase began (R330, R331). -/
structure Gather where
  req : LanePkt
  values : Option (List Byte) := none
  zeros : Nat := 0
  deriving DecidableEq, Repr, Inhabited

/-- A `tlbinv` not yet complete (R200, R404). -/
structure TlbInv where
  core : Nat
  ctx : Nat
  stamp : Nat
  scope : Scope
  lo : Nat
  hi : Nat
  all : Bool
  sem : Nat
  /-- 0 begun, 1 its entries are dropped, 2 the lines of their pages are written back -/
  phase : Nat := 0
  /-- the stamp at which the entries were dropped, and the physical ranges of their pages -/
  mark : Nat := 0
  pages : List (Nat × Nat) := []
  deriving DecidableEq, Repr, Inhabited

/-- The save engine of a cluster (R411). -/
inductive Engine where
  | idle
  /-- works for the entry of a core's operand log, from an offset, on the image of a number -/
  | busy (core entry off id : Nat)
  /-- paused on a target core, with CL, area, offset and the number of the image -/
  | paused (target : Nat) (cl : Bool) (area : Word) (off id : Nat)
  deriving DecidableEq, Repr, Inhabited

/-- SENSE of a core (R447). -/
structure Sense where
  stress : Nat := 0
  droop : Nat := 0
  temp : Nat := 0
  deriving DecidableEq, Repr, Inhabited

/-- A cluster (R15, R19). -/
structure Cluster where
  mweight : Tab Nat := []
  vshare : Tab Nat := []
  ways : Ways := {}
  part : Nat := 0
  domain : Domain := {}
  domainPend : Option Domain := none
  phase : Phase := {}
  ptroot : Word := 0
  tlb : List TlbEntry := []
  /-- pages whose entries have given way, and whose lines or replicas may still be held (the model's own record) -/
  tlbOld : List TlbEntry := []
  cc : List Line := []
  arbP : Nat := 0
  arbD : Tab Int := []
  millP : Nat := 0
  /-- the steps that core P still has in its turn; 0 at a turn's end (R238) -/
  millLeft : Nat := 0
  table : List SlotEntry := []
  lane : List LanePkt := []
  gathers : List Gather := []
  tlbinvs : List TlbInv := []
  engine : Engine := .idle
  sense : Tab Sense := []
  /-- droop events counted in the running interval, and a supply sag in progress -/
  droops : Tab Nat := []
  sag : Bool := false
  haltRec : Tab (List Byte) := []
  census : Bool := false
  spareUsed : Bool := false
  deriving DecidableEq, Repr, Inhabited

/-- A 64-byte sector of a slice frame: valid bit, dirty bit and mask of valid words (R154). -/
structure LlcSector where
  valid : Bool := false
  dirty : Bool := false
  mask : Nat := 0
  deriving DecidableEq, Repr, Inhabited

/-- A granule frame of an LLC slice, in order of use (R154). -/
structure Frame where
  granule : Nat
  pin : Bool := false
  replica : Bool := false
  sectors : Tab LlcSector := []
  /-- the bytes of a replica's sectors, by physical address divided by 32 (R140) -/
  data : Tab (List Byte) := []
  deriving DecidableEq, Repr, Inhabited

/-- A Granary (R16, R154 to R157). -/
structure Granary where
  frames : List Frame := []
  bypass : Nat := 0
  retired : Nat := 0
  /-- frames excluded from allocation: set and frame (R414) -/
  gone : List (Nat × Nat) := []
  deriving DecidableEq, Repr, Inhabited

/-- Who asked for an access and where its answer goes. -/
inductive Asker where
  /-- part k of entry e of the operand log -/
  | op (core entry part : Nat)
  | fetch (core idx part : Nat)
  /-- a write-back or drained write, with the cores whose releases wait for it (R146) -/
  | wback (cores : List Nat)
  | none
  deriving DecidableEq, Repr, Inhabited

/-- What a home is asked to do (R139). -/
inductive AccessKind where
  | read
  /-- a read that also takes the line for a replica or a cache -/
  | readLine
  | write
  /-- operation 0 to 7 in the order of R168, width in bytes, signed, operand and compare value -/
  | atomic (op width : Nat) (signed : Bool) (operand compare : Nat)
  | frd
  | fwr (value : Nat) (anyway : Bool)
  deriving DecidableEq, Repr, Inhabited

/-- An access on its way to a home: at most one 32-byte sector (R139, R158). -/
structure Access where
  kind : AccessKind
  pa : Nat
  n : Nat
  /-- offset to byte, for writes -/
  data : Tab (Byte × Nat × Nat) := []
  /-- for a drained write, the stores that were written over in the buffer (R149) -/
  hid : List (Nat × Nat × Nat) := []
  core : Nat
  ctx : Nat
  stamp : Nat
  asker : Asker
  /-- the requester's nearest slice serves it (R140) -/
  replica : Bool := false
  /-- `pref` asks (R156, R179) -/
  pref : Bool := false
  /-- it has met a line with an uncorrectable error, or carries the bytes of one (R413) -/
  err : Bool := false
  deriving DecidableEq, Repr, Inhabited

/-- The class of an open-plane message (R343). -/
inductive MsgClass where
  | request | reply | combine | control
  deriving DecidableEq, Repr, Inhabited

/-- What an open-plane message carries. -/
inductive Body where
  | access (a : Access)
  /-- the answer to an access: bytes, or a fault -/
  | answer (asker : Asker) (core ctx stamp : Nat) (bytes : List Byte) (err : Option (Cause × BitVec 32)) (pa : Nat)
  /-- a future's value for a parked reader (R172) -/
  | wake (core ctx : Nat) (value : Word)
  /-- `done` to a bell (R123, R333) -/
  | done (core bell sender ctx stamp : Nat)
  /-- DONE_TARGET or another report on its way back to a context -/
  | report (core ctx : Nat) (r : Report)
  /-- an exchange send that crosses a failed link (R357) -/
  | lane (p : LanePkt)
  /-- an acknowledgement: space 0 forward, 1 reply, and the number delivered (R351) -/
  | ack (space seq : Nat)
  deriving DecidableEq, Repr, Inhabited

/-- An open-plane message between interfaces (R351). -/
structure Msg where
  src : Nat
  dst : Nat
  cls : MsgClass
  /-- its number in its space; acknowledgements carry none -/
  seq : Nat := 0
  age : Nat := 0
  body : Body
  deriving DecidableEq, Repr, Inhabited

/-- A packet in an input buffer of a router (R342). Port 8 is the local input. -/
structure Pkt where
  msg : Msg
  port : Nat
  rail : Nat
  suspect : Bool := false
  deriving DecidableEq, Repr, Inhabited

/-- A router (R342 to R361). -/
structure Router where
  pkts : List Pkt := []
  /-- packets in spill slots, in slot order, each with the partition that resumes with it (R407, R408) -/
  spill : List (Nat × Msg) := []
  reserved : Option Msg := none
  down : Nat := 0
  tmo : Nat := 512
  susp : Nat := 0
  capt : Nat := 0
  byej : Nat := 0
  drop : Nat := 0
  retry : Nat := 0
  /-- by port, the beats sent again in a row (R355) -/
  runs : Tab Nat := []
  deriving DecidableEq, Repr, Inhabited

/-- A network interface (R351, R352). -/
structure Iface where
  /-- submitted, not yet injected -/
  out : List Msg := []
  /-- accepted, not yet delivered -/
  inbox : List Msg := []
  /-- delivered accesses, waiting to be performed in order (R139) -/
  arr : List Access := []
  /-- delivered `done` messages, waiting to be applied (R333) -/
  ctl : List Body := []
  /-- acknowledgements that have arrived (R351) -/
  acks : List Msg := []
  deriving DecidableEq, Repr, Inhabited

/-- One sequence space of a pair (R351). -/
structure Pair where
  next : Nat := 0
  deliver : Nat := 0
  /-- every lower number is acknowledged, and the higher numbers that are -/
  acked : Nat := 0
  early : List Nat := []
  /-- the numbers from `deliver` on of messages that were dropped on their way (R356) -/
  lost : List Nat := []
  deriving DecidableEq, Repr, Inhabited

/-- The open plane (R342 to R361). -/
structure Net where
  routers : Tab Router := []
  ifaces : Tab Iface := []
  /-- key (source × 520 + destination) × 2 + space -/
  pairs : Tab Pair := []
  /-- ring position of the Lantern, and the router that holds it with its Byway packet -/
  lantern : Nat := 0
  byway : Option (Nat × Msg) := none
  /-- failed links (router, port), those the distance tables know of, and failed routers -/
  failedLinks : List (Nat × Nat) := []
  knownLinks : List (Nat × Nat) := []
  failedRouters : List Nat := []
  knownRouters : List Nat := []
  deriving DecidableEq, Repr, Inhabited

/-- STATE of a status record (R33). -/
inductive TaskState where
  | queued | spilled | running
  deriving DecidableEq, Repr, Inhabited

/-- A record of the Reeve (R29 to R33, R364 to R380). -/
structure TaskRec where
  ticket : Nat
  die : Nat
  age : Nat
  part : Nat
  kind : Nat
  gran : Nat := 0
  dev : Nat := 0
  hasdl : Bool := false
  restart : Bool := false
  code : Nat := 0
  codelen : Nat := 0
  entry : Nat := 0
  args : Nat := 0
  arglen : Nat := 0
  ronum : Nat := 0
  deadline : Nat := 0
  status : Nat := 0
  compl : Nat := 0
  /-- the groups: EOFF and CORES -/
  groups : List (Nat × Nat) := []
  state : TaskState := .queued
  late : Bool := false
  rlost : Bool := false
  restarted : Bool := false
  cfull : Bool := false
  cbad : Bool := false
  /-- none, the ticket of the consumer -/
  consumer : Option Nat := none
  /-- supervisor start (R388) -/
  sup : Bool := false
  /-- the addresses are physical or translated by this cluster's tables -/
  cluster : Option Nat := none
  cores : List Nat := []
  /-- the seats of the cores that have retired, as places in `cores` (R377) -/
  retired : List Nat := []
  /-- STATE 2 has been written (R27, R374) -/
  given : Bool := false
  /-- EXIT given by group 0, rank 0 -/
  exit : Word := 0
  /-- clusters of a failed attempt (R380) -/
  avoid : List Nat := []
  /-- the snapshot slot that holds the argument block, and the address that it was copied to (R380) -/
  snapshot : Option (Nat × Nat) := none
  /-- the physical address of its 256 bytes in the spill area (R365) -/
  spillAt : Option Nat := none
  deriving DecidableEq, Repr, Inhabited

/-- A reservation of the head (R369). -/
structure Reserve where
  part : Nat
  ticket : Nat
  cores : List Nat
  deriving DecidableEq, Repr, Inhabited

/-- A host queue (R385). -/
structure HostQueue where
  base : Word := 0
  en : Bool := false
  part : Nat := 0
  die : Nat := 0
  head : Nat := 0
  size : Nat := 0
  tail : Nat := 0
  deriving DecidableEq, Repr, Inhabited

/-- The registers of one die's Reeve (R386). -/
structure DieReeve where
  lw : Nat := 256
  rej : Nat := 0
  spbase : Word := 0
  spsize : Nat := 0
  snbase : Word := 0
  deriving DecidableEq, Repr, Inhabited

/-- A ring or area with its control register (R384). -/
structure Area where
  base : Word := 0
  drop : Nat := 0
  tail : Nat := 0
  head : Nat := 0
  size : Nat := 0
  deriving DecidableEq, Repr, Inhabited

/-- The Reeve (R362 to R386). -/
structure Reeve where
  recs : List TaskRec := []
  ticket : Nat := 1
  rp : Tab Nat := []
  reserves : List Reserve := []
  queues : Tab HostQueue := []
  dies : Tab DieReeve := []
  late : Area := {}
  census : Area := {}
  deriving DecidableEq, Repr, Inhabited

/-- EVCTL (R437). -/
structure EvCtl where
  pend : Bool := false
  host : Bool := false
  core : Bool := false
  cluster : Nat := 0
  lcore : Nat := 0
  deriving DecidableEq, Repr, Inhabited

/-- A Curfew request (R405). -/
structure Curfew where
  part : Nat
  resume : Bool
  time : Nat
  area : Nat
  /-- the routers have read their slots (R408) -/
  loaded : Bool := false
  deriving DecidableEq, Repr, Inhabited

/-- A peer (R440, R441). -/
structure Peer where
  addrh : Word := 0
  addrl : Word := 0
  en : Bool := false
  down : Bool := false
  port : Nat := 0
  deriving DecidableEq, Repr, Inhabited

/-- An Ethernet port (R440). -/
structure Port where
  addrh : Word := 0
  addrl : Word := 0
  link : Bool := false
  up : Bool := false
  udp : Nat := 0
  deriving DecidableEq, Repr, Inhabited

/-- A request outstanding at the host or at a peer (R436, R441). -/
structure Outer where
  tag : Nat
  access : Access
  /-- interface that the answer returns to -/
  back : Nat
  tries : Nat := 0
  /-- its number in the sequence of its source tile and peer, and whether the peer has acknowledged it (R351, R441) -/
  seq : Nat := 0
  acked : Bool := false
  deriving DecidableEq, Repr, Inhabited

/-- An answer to a peer that it has not acknowledged: its tag, the tile it comes from, its number in the sequence of that tile and the peer,
and how often it has been sent again (R351, R441). -/
structure PeerAns where
  tag : Nat
  peer : Nat
  src : Nat
  seq : Nat
  tries : Nat := 0
  deriving DecidableEq, Repr, Inhabited

/-- CFSTAT (R439). -/
structure CfStat where
  done : Bool := false
  op : Nat := 0
  time : Nat := 0
  deriving DecidableEq, Repr, Inhabited

/-- The test access port (R449): the instruction register, and the data register last shifted out. -/
structure Tap where
  ir : Nat := 1
  dr : Word := 0
  /-- an instruction placed for the port's next step -/
  pend : Option Nat := none
  deriving DecidableEq, Repr, Inhabited

/-- The I/O die (R433 to R449). -/
structure IoDie where
  ready : Bool := false
  err : Bool := false
  set : Nat := 0
  stage : Nat := 1
  version : Nat := 0
  /-- the steward firmware and the device firmware that run, as images (R444) -/
  steward : Nat := 0
  device : Nat := 0
  attNonce : Tab Word := []
  attAddr : Word := 0
  attGo : Bool := false
  /-- the nonce and the address that the report in progress took at GO (R444) -/
  goNonce : Tab Word := []
  goAddr : Word := 0
  attDone : Bool := false
  attErr : Bool := false
  link : Bool := false
  gen : Nat := 0
  width : Nat := 0
  lost : Nat := 0
  doorbell : Word := 0
  ports : Tab Port := []
  peers : Tab Peer := []
  trapq : Tab Area := []
  cfstat : Tab CfStat := []
  ev : Tab EvCtl := []
  plimWin : Nat := 4
  plimLimit : Nat := 2600
  throt : Bool := false
  power : Nat := 0
  tapen : Bool := false
  frz : Bool := false
  tap : Tap := {}
  pcie : List Outer := []
  peerMsgs : List Outer := []
  /-- the next message number by source tile and peer, key tile × 16 + peer (R351, R441) -/
  peerSeq : Tab Nat := []
  /-- the answers to peers that are not acknowledged, and the next number of an answer by tile and peer (R351, R441) -/
  peerAns : List PeerAns := []
  ansSeq : Tab Nat := []
  msix : List Nat := []
  /-- read data returned to the host by its accesses, latest first -/
  hostReads : List (Nat × List Byte) := []
  /-- data and completions sent to peers for their messages, latest first (R441) -/
  peerReads : List (Nat × List Byte) := []
  curfews : List Curfew := []
  stopped : List Nat := []
  deriving DecidableEq, Repr, Inhabited

/-- A collective that has started (R337 to R339). -/
structure Coll where
  core : Nat
  ctx : Nat
  stamp : Nat
  part : Nat
  src : Nat
  dst : Nat
  bytes : Nat
  nmem : Nat
  rank : Nat
  group : List (Nat × Nat)
  tag : Nat
  reserved : Bool
  instr : Instr := .nop
  rm : Rm := .rne
  fl : Flags := {}
  /-- 0 started, 1 its source is read, 2 its destination is written, 3 complete -/
  stage : Nat := 0
  /-- the bytes it contributes, once read -/
  data : List Byte := []
  deriving DecidableEq, Repr, Inhabited

/-- A gathering of collectives, open until it holds `size` starts (R338). -/
structure Gathering where
  part : Nat
  tag : Nat
  size : Nat
  members : List Coll
  closed : Bool := false
  deriving DecidableEq, Repr, Inhabited

/-- A saved image: its number and what it holds (R409, R412). -/
structure Image where
  id : Nat
  core : Core
  tcm : List Byte
  istore : List Byte
  cluster : Option Cluster
  /-- the kept ranges: offset in scratch and length (R410) -/
  kept : List (Nat × Nat)
  /-- bytes 0x08 to 0xFF of its header -/
  head : List Byte := []
  deriving DecidableEq, Repr, Inhabited

/-- A saved network area (R407). -/
structure NetImage where
  id : Nat
  part : Nat
  /-- the slots: router, slot number and packet -/
  slots : List (Nat × Nat × Msg)
  pairs : Tab Pair
  /-- messages that the interfaces held: submitted, and accepted but not delivered -/
  out : List (Nat × Msg)
  inbox : List (Nat × Msg)
  deriving DecidableEq, Repr, Inhabited

/-- What the bundle that issues has done so far. -/
inductive Out where
  /-- goes on -/
  | go
  /-- an operand or a queue is not ready: the bundle has not issued (R22) -/
  | stall
  /-- a trap was taken in place of the bundle, or a task was ended -/
  | trap
  /-- a waiting instruction has blocked the context -/
  | block
  deriving DecidableEq, Repr, Inhabited

/-- The issuing context and its bundle (R23, R45, R112). -/
structure Cur where
  core : Nat := 0
  ctx : Nat := 0
  pc : PC := 0
  /-- the program counter that the bundle's own effect gives -/
  next : PC := 1
  /-- a br, a conditional branch or a jr was taken -/
  taken : Bool := false
  out : Out := .go
  /-- the fault detected at issue that `out` stands for (R47) -/
  fault : Option (Cause × BitVec 32) := none
  /-- the words of the bundle, and which slot acts -/
  w0 : Nat := 0
  w1 : Nat := 0
  slotA : Bool := false
  /-- the registers as both slots read them at issue (R45) -/
  latch : Option Ctx := none
  /-- the core's Gleaner as the bundle finds it, and whether its C slot is a `glfoot` that has declared its footprint (R424) -/
  glAt : Option Gleaner := none
  footed : Bool := false
  deriving DecidableEq, Repr, Inhabited

/-- A piece of the state of a context as system software writes it before it resumes the context (R393; DEDUCED,
notes/assumptions/18.md). -/
inductive Edit where
  | g (r : Nat) (v : Word)
  | p (r : Nat) (v : Word)
  | v (r : Nat) (v : VWord)
  /-- a register of R59 that belongs to a context -/
  | sys (n : Nat) (v : Word)
  deriving DecidableEq, Repr

/-- What moves next (DESIGN CHOICE, notes/assumptions/1.md). -/
inductive Move where
  /-- a core issues its next bundle -/
  | issue (core : Nat)
  /-- an event of the package, or an instruction of the test access port -/
  | event (e : Instr)
  /-- system software resumes a context halted by delegation, with what it has written of its state (R22, R393) -/
  | resume (core ctx : Nat) (edits : List Edit)
  /-- system software ends a running task with STATE 4 and a cause (R22, R370, R393) -/
  | endTask (ticket : Nat) (cause : Cause)
  /-- system software assigns a cluster to a partition (R35, R36) -/
  | assign (cluster part : Nat)
  deriving DecidableEq, Repr

/-- The whole machine. -/
structure State where
  cores : Tab Core := []
  clusters : Tab Cluster := []
  granaries : Tab Granary := []
  net : Net := {}
  reeve : Reeve := {}
  io : IoDie := {}
  tower : Word := 0
  mem : List Host.Cell := []
  /-- 32-byte sectors that hold an uncorrectable error (R413) -/
  poison : List Nat := []
  gatherings : List Gathering := []
  images : List Image := []
  netImages : List NetImage := []
  cur : Cur := {}
  agenda : List Move := []
  turn : Nat := 0
  freeCtr : Nat := 0
  stamp : Nat := 0
  deriving DecidableEq, Repr, Inhabited

/-- The machine right after reset (R9, R442): every register at the reset value of its map, every context free, memory with
nothing listed. Values that the manual does not give are named in notes/assumptions/5.md (DESIGN CHOICE). -/
def State.reset : State := {}

end Sys2Proof.Machine
end

