-- ==== Sys2Proof/Machine/Ops.lean ====
section
/-! DEFINITION. The named operations over the state: registers, memory, the address map and translation, events, status
records, the end of a task, taking an exception (R390) and the end-of-body check (R112). -/

namespace Sys2Proof.Machine

/-! ### Cores, contexts and registers -/

namespace State

/-- The core of a number. -/
def core (s : State) (k : Nat) : Core := s.cores.get {} k
/-- The state with one core changed. -/
def updCore (s : State) (k : Nat) (f : Core → Core) : State := { s with cores := s.cores.put k (f (s.core k)) }
/-- The cluster of an index. -/
def cluster (s : State) (c : Nat) : Cluster := s.clusters.get {} c
/-- The state with one cluster changed. -/
def updCluster (s : State) (c : Nat) (f : Cluster → Cluster) : State :=
  { s with clusters := s.clusters.put c (f (s.cluster c)) }
/-- The Granary of an index. -/
def granary (s : State) (g : Nat) : Granary := s.granaries.get {} g
/-- The state with one Granary changed. -/
def updGranary (s : State) (g : Nat) (f : Granary → Granary) : State :=
  { s with granaries := s.granaries.put g (f (s.granary g)) }
/-- A context of a core. -/
def ctx (s : State) (k c : Nat) : Ctx := (s.core k).ctxs.get {} c
/-- The state with one context changed. -/
def updCtx (s : State) (k c : Nat) (f : Ctx → Ctx) : State :=
  s.updCore k fun x => { x with ctxs := x.ctxs.put c (f (x.ctxs.get {} c)) }
/-- The issuing context. -/
def me (s : State) : Ctx := s.ctx s.cur.core s.cur.ctx
/-- The state with the issuing context changed. -/
def updMe (s : State) (f : Ctx → Ctx) : State := s.updCtx s.cur.core s.cur.ctx f
/-- The issuing core. -/
def my (s : State) : Core := s.core s.cur.core
/-- The state with the issuing core changed. -/
def updMy (s : State) (f : Core → Core) : State := s.updCore s.cur.core f
/-- The registers as both slots of the bundle read them (R45). -/
def atIssue (s : State) : Ctx := s.cur.latch.getD s.me
/-- The state with the issuing bundle's record changed. -/
def updCur (s : State) (f : Cur → Cur) : State := { s with cur := f s.cur }

end State

/-- A general register. g0 reads as zero (R46, R123; DEDUCED, notes/assumptions/6.md). -/
def Ctx.readG (c : Ctx) (r : Nat) : Word := if r = 0 then 0 else c.g.get 0 r
/-- A general register written. A write to g0 is discarded (R46, R162; DEDUCED, notes/assumptions/6.md). -/
def Ctx.writeG (c : Ctx) (r : Nat) (v : Word) : Ctx := if r = 0 then c else { c with g := c.g.put r v }
/-- A predicate register. -/
def Ctx.readP (c : Ctx) (r : Nat) : Word := c.p.get 0 r
/-- A predicate register written. -/
def Ctx.writeP (c : Ctx) (r : Nat) (v : Word) : Ctx := { c with p := c.p.put r v }
/-- A vector register. -/
def Ctx.readV (c : Ctx) (r : Nat) : VWord := c.v.get 0 r
/-- A vector register written. -/
def Ctx.writeV (c : Ctx) (r : Nat) (v : VWord) : Ctx := { c with v := c.v.put r v }

/-- A general register as the issuing bundle reads it (R45). -/
def State.srcG (s : State) (r : R5) : Word := s.atIssue.readG r.toNat
/-- A predicate as the issuing bundle reads it (R45). -/
def State.srcP (s : State) (r : Nat) : Word := s.atIssue.readP r
/-- A general register of the issuing context written. -/
def State.setG (s : State) (r : R5) (v : Word) : State := s.updMe fun c => c.writeG r.toNat v
/-- A predicate of the issuing context written. -/
def State.setP (s : State) (r : R5) (v : Word) : State := s.updMe fun c => c.writeP r.toNat v
/-- A vector register of the issuing context written. -/
def State.setV (s : State) (r : R5) (v : VWord) : State := s.updMe fun c => c.writeV r.toNat v

/-! ### Numbers of agents (R7, R14, R133, R407) -/

/-- The core number is a Granary core's (R133). -/
def isGran (k : Nat) : Bool := 3072 ≤ k
/-- The cluster of a cluster core. -/
def clusterOf (k : Nat) : Nat := k / 8
/-- The logical number of a core in its tile. -/
def lcoreOf (k : Nat) : Nat := if isGran k then 0 else k % 8
/-- The network interface of a core's tile (R407). -/
def tileOf (k : Nat) : Nat := if isGran k then 384 + (k - 3072) else k / 8
/-- The die, column and router row of a tile's router, or of an I/O-die router as (4, c, 0) (R7, R14). -/
def posOf (t : Nat) : Nat × Nat × Nat :=
  if t < 384 then (t / 96, t % 16, t % 96 / 16 + 1)
  else if t < 512 then
    let g := t - 384
    (g / 32, g % 16, if g % 32 < 16 then 0 else 7)
  else (4, t - 512, 0)
/-- The tile at a position (R14). -/
def tileAt (d c r : Nat) : Nat :=
  if d = 4 then 512 + c
  else if r = 0 then 384 + d * 32 + c
  else if r = 7 then 384 + d * 32 + 16 + c
  else d * 96 + (r - 1) * 16 + c
/-- The die of a core. -/
def dieOf (k : Nat) : Nat := (posOf (tileOf k)).1
/-- The cores of a cluster. -/
def coresOf (cl : Nat) : List Nat := (List.range 8).map fun j => cl * 8 + j

/-! ### Domains (R35, R36) -/

/-- The identifier of a cluster's domain at a level; its own index until written (R36). -/
def domainId (d : Domain) (cl level : Nat) : Nat := d.id.get cl level
/-- Two clusters are members of one domain at a level: of one partition, and with the same identifier below level 4
(DEDUCED, notes/assumptions/38.md). -/
def sameDomain (s : State) (level a b : Nat) : Bool :=
  (s.cluster a).part == (s.cluster b).part &&
    (level == 4 || domainId (s.cluster a).domain a level == domainId (s.cluster b).domain b level)
/-- The members of a cluster's domain at its LEVEL. -/
def domainOfCluster (s : State) (cl : Nat) : List Nat :=
  (List.range 384).filter fun j => sameDomain s (s.cluster cl).domain.level cl j
/-- The live contexts of a cluster: core number and context (R22, R320). -/
def liveContexts (s : State) (cl : Nat) : List (Nat × Nat) :=
  (coresOf cl).flatMap fun k => ((List.range 11).filter fun c => (s.ctx k c).run != .free).map fun c => (k, c)
/-- The stall census rearms for the domain of a cluster (R41). -/
def State.rearm (s : State) (cl : Nat) : State :=
  if s.clusters.any fun e => e.2.census && sameDomain s e.2.domain.level e.1 cl then
    { s with clusters := s.clusters.map fun e =>
        (e.1, if e.2.census && sameDomain s e.2.domain.level e.1 cl then { e.2 with census := false } else e.2) }
  else s

/-! ### Stops of the Curfew, and freezes (R406, R448) -/

/-- A stop of a partition is due: its time has come (R406). -/
def State.stopDue (s : State) (p : Nat) : Bool :=
  s.io.curfews.any fun c => c.part == p && !c.resume && decide (c.time ≤ s.tower.toNat)
/-- The cores of a partition issue nothing and its units start nothing: it is stopped, or its stop is due. -/
def State.halting (s : State) (p : Nat) : Bool := s.io.stopped.contains p || s.stopDue p
/-- The units of a cluster start nothing. -/
def State.clusterStill (s : State) (cl : Nat) : Bool := s.io.frz || s.halting (s.cluster cl).part
/-- A core issues nothing and takes no trap, and its units start nothing. No stop reaches a Granary core (R370). -/
def State.coreStill (s : State) (k : Nat) : Bool := s.io.frz || (!isGran k && s.halting (s.cluster (clusterOf k)).part)
/-- A tile is frozen, or is a cluster of a stopped partition: messages that arrive for it wait for the resume (R406). -/
def State.tileStopped (s : State) (t : Nat) : Bool :=
  s.io.frz || (decide (t < 384) && s.io.stopped.contains (s.cluster t).part)
/-- A tile is a cluster of a partition that is stopped or whose stop is due. -/
def State.tileHalting (s : State) (t : Nat) : Bool := decide (t < 384) && s.halting (s.cluster t).part

/-- A context that a stop or a freeze halts (R22). -/
def Run.halt : Run → Run
  | .free => .free
  | .ready => .halted .ready
  | .stalled => .halted .stalled
  | .blocked w => .halted (.blocked w)
  | .halted h => .halted h
  | .delegated => .halted .delegated
/-- Every context of a core changed in its state. -/
def mapRuns (f : Run → Run) (x : Core) : Core := { x with ctxs := x.ctxs.map fun e => (e.1, { e.2 with run := f e.2.run }) }
/-- A freeze is asserted: every context halts, and nothing on the compute dies moves until reset (R448). -/
def State.freeze (s : State) : State :=
  if s.io.frz then s
  else { s with cores := s.cores.map fun e => (e.1, mapRuns Run.halt e.2), io := { s.io with frz := true } }

/-! ### Bytes and memory -/

/-- Bytes to a number, least significant first (R4). -/
def ofBytes : List Byte → Nat
  | [] => 0
  | b :: t => b.toNat + 256 * ofBytes t
/-- The low `n` bytes of a number, least significant first (R4). -/
def toBytes : Nat → Nat → List Byte
  | 0, _ => []
  | n + 1, x => BitVec.ofNat 8 x :: toBytes n (x / 256)

/-- What a byte of memory that nothing has written reads as: zero, for RAM after power-on (DESIGN CHOICE, notes/assumptions/4.md). -/
def unwritten : Byte := 0
/-- A byte of memory. -/
def memGet (m : List Host.Cell) (a : Nat) : Byte := Tab.get m unwritten a
/-- Memory with one byte written. The list keeps its canonical form: rising addresses, no byte equal to `unwritten`. -/
def memSet (m : List Host.Cell) (a : Nat) (b : Byte) : List Host.Cell :=
  if b = unwritten then Tab.del m a else Tab.put m a b
/-- The canonical form of memory: strictly rising addresses, and no byte equal to `unwritten`. -/
def memWf : List Host.Cell → Bool
  | [] => true
  | [(_, b)] => b != unwritten
  | (a, b) :: (a', b') :: t => a < a' && b != unwritten && memWf ((a', b') :: t)
/-- `n` bytes of memory. -/
def memRead (m : List Host.Cell) (a n : Nat) : List Byte := (List.range n).map fun i => memGet m (a + i)
/-- Memory with bytes written from an address up. -/
def memWrite (m : List Host.Cell) (a : Nat) : List Byte → List Host.Cell
  | [] => m
  | b :: t => memWrite (memSet m a b) (a + 1) t

/-- `n` bytes of the machine's memory. -/
def State.read (s : State) (a n : Nat) : List Byte := memRead s.mem a n
/-- The machine with bytes written to memory. -/
def State.write (s : State) (a : Nat) (bs : List Byte) : State := { s with mem := memWrite s.mem a bs }
/-- A number of `n` bytes read from memory. -/
def State.readN (s : State) (a n : Nat) : Nat := ofBytes (s.read a n)
/-- A number of `n` bytes written to memory. -/
def State.writeN (s : State) (a n x : Nat) : State := s.write a (toBytes n x)

/-! ### The address map (R130 to R138) -/

/-- The base of the on-chip windows (R132). -/
def onChip : Nat := 0x3000000000000
/-- The base of device memory (R132). -/
def devBase : Nat := 0x10000000000
/-- The first address past device memory (R132). -/
def devEnd : Nat := 0x16000000000
/-- The physical address of a core's TCM (R133). -/
def tcmBase (k : Nat) : Nat := onChip + k * 0x40000
/-- The physical address of a core's instruction store (R133). -/
def istoreBase (k : Nat) : Nat := onChip + k * 0x40000 + 0x20000
/-- The physical address of a cluster's scratch (R133). -/
def scratchBase (cl : Nat) : Nat := onChip + 0x100000000 + cl * 0x400000

/-- Where an address has its home (R132, R133, R137). -/
inductive HomeAt where
  | tcm (core off : Nat)
  | istore (core off : Nat)
  | scratch (cl off : Nat)
  | device
  | host
  | peer (n off : Nat)
  | regs (tile off : Nat)
  | nowhere
  deriving DecidableEq, Repr

/-- The window of an on-chip offset (R133). -/
def onChipAt (o : Nat) : HomeAt :=
  if o < 3200 * 0x40000 then
    let k := o / 0x40000
    let x := o % 0x40000
    if x < 0x20000 then .tcm k x else if x < 0x30000 then .istore k (x - 0x20000) else .nowhere
  else if 0x100000000 ≤ o ∧ o < 0x100000000 + 384 * 0x400000 then
    .scratch ((o - 0x100000000) / 0x400000) ((o - 0x100000000) % 0x400000)
  else if 0x200000000 ≤ o ∧ o < 0x200000000 + 513 * 0x10000 then
    .regs ((o - 0x200000000) / 0x10000) ((o - 0x200000000) % 0x10000)
  else .nowhere

/-- The home of a physical address (R132, R137). The TCM that a Granary core sees at address 0 is resolved before. -/
def homeAt (pa : Nat) : HomeAt :=
  if devBase ≤ pa ∧ pa < devEnd then .device
  else if 0x1000000000000 ≤ pa ∧ pa < 0x2000000000000 then .host
  else if 0x2000000000000 ≤ pa ∧ pa < 0x3000000000000 then
    .peer ((pa - 0x2000000000000) / 2 ^ 44) (pa % 2 ^ 44)
  else if onChip ≤ pa ∧ pa < 0x3100000000000 then onChipAt (pa - onChip)
  else .nowhere

/-- The home Granary of a device address (R138). -/
def homeGran (pa : Nat) : Nat :=
  let d := pa - devBase
  (d / 2 ^ 11 % 128) ^^^ (d / 2 ^ 18 % 128) ^^^ (d / 2 ^ 25 % 128) ^^^ (d / 2 ^ 32 % 128)
/-- The slice set of a device address (R138). -/
def sliceSet (pa : Nat) : Nat :=
  let d := pa - devBase
  (d / 2 ^ 18 % 128) ^^^ (d / 2 ^ 25 % 128)

/-- The interface of the tile where an address has its home. Host and peer accesses leave through an I/O-die router, as do
those of the I/O die's registers (DESIGN CHOICE, notes/assumptions/15.md). -/
def homeTile (pa : Nat) : Nat :=
  match homeAt pa with
  | .tcm k _ => tileOf k
  | .istore k _ => tileOf k
  | .scratch cl _ => cl
  | .device => 384 + homeGran pa
  | .regs t _ => t
  | .host => 512
  | .peer _ _ => 512
  | .nowhere => 512

/-- The nearest slice of a core (R140). -/
def nearestSlice (k : Nat) : Nat :=
  if isGran k then tileOf k
  else
    match posOf (tileOf k) with
    | (d, c, r) => tileAt d c (if r ≤ 3 then 0 else 7)

/-- An address is canonical (R130). -/
def canonical (va : Nat) : Bool := va < 2 ^ 47 || (2 ^ 64 - 2 ^ 47 ≤ va && va < 2 ^ 64)

/-- What a translated or untranslated access may do (R135). -/
structure Attr where
  /-- may be held in L1 and the cluster cache part -/
  cached : Bool := false
  /-- the page has W = 1 -/
  wpage : Bool := true
  /-- loads may be served by a replica -/
  repl : Bool := false
  deriving DecidableEq, Repr

/-- The outcome of looking up one address. -/
inductive Look where
  | ok (pa : Nat) (a : Attr)
  /-- a cause, with the table level where a translation failed -/
  | bad (c : Cause) (level : Nat)
  /-- the TLB holds no entry for the page -/
  | miss
  deriving DecidableEq, Repr

/-- The cluster's domain phase forbids accesses outside local memory (R316, R317). -/
def Cluster.computePhase (c : Cluster) : Bool := c.domain.mode.testBit c.domain.level && !c.phase.xp

/-- A physical address lies in memory that a compute phase allows to a core (R317). -/
def localTo (k pa : Nat) : Bool :=
  match homeAt pa with
  | .tcm k' _ => k' == k
  | .scratch cl _ => !isGran k && cl == clusterOf k
  | _ => false

/-- The shadow-stack region of a TCM (R106). -/
def inShadow (off : Nat) : Bool := 0x1F000 ≤ off && off < 0x1FB00

/-- A physical address lies in the shadow-stack region of a TCM (R106). -/
def inShadowPa (pa : Nat) : Bool :=
  match homeAt pa with
  | .tcm _ off => inShadow off
  | _ => false

/-- The rights of an access to an untranslated window (R134, R136). -/
def windowRights (s : State) (k : Nat) (sup : Bool) (pa : Nat) : Look :=
  match homeAt pa with
  | .nowhere => .bad .page 0
  | .regs _ _ => if sup then .ok pa {} else .bad .prot 0
  | .tcm k' _ | .istore k' _ =>
    if !isGran k && !isGran k' && (s.cluster (clusterOf k')).part ≠ (s.cluster (clusterOf k)).part then .bad .prot 0
    else .ok pa {}
  | .scratch cl _ =>
    if !isGran k && (s.cluster cl).part ≠ (s.cluster (clusterOf k)).part then .bad .prot 0 else .ok pa {}
  | .device | .host | .peer _ _ => .ok pa {}

/-! ### Links of the routers (R13, R355, R361) -/

/-- The router at the far end of a port, where the position has a link: ports 0 north, 1 east, 2 south, 3 west, 4 skip east,
5 skip west (R13, R361). -/
def neighbour (t p : Nat) : Option Nat :=
  match posOf t with
  | (d, c, r) =>
    if 520 ≤ t then none
    else if d = 4 then
      if p = 0 then some (tileAt (c / 2) (7 + c % 2) 7)
      else if p = 1 then (if c < 7 then some (512 + c + 1) else none)
      else if p = 3 then (if 0 < c then some (512 + c - 1) else none)
      else none
    else if p = 0 then (if 0 < r then some (tileAt d c (r - 1)) else none)
    else if p = 1 then (if c < 15 then some (tileAt d (c + 1) r) else if d < 3 then some (tileAt (d + 1) 0 r) else none)
    else if p = 2 then
      if r < 7 then some (tileAt d c (r + 1))
      else if c = 7 then some (512 + 2 * d)
      else if c = 8 then some (512 + 2 * d + 1)
      else none
    else if p = 3 then (if 0 < c then some (tileAt d (c - 1) r) else if 0 < d then some (tileAt (d - 1) 15 r) else none)
    else if p = 4 then (if c < 12 then some (tileAt d (c + 4) r) else none)
    else if p = 5 then (if 4 ≤ c then some (tileAt d (c - 4) r) else none)
    else none
/-- The port at the far end of a link. -/
def backPort (p : Nat) : Nat :=
  if p = 0 then 2 else if p = 1 then 3 else if p = 2 then 0 else if p = 3 then 1 else if p = 4 then 5 else 4
/-- A router. -/
def State.router (s : State) (r : Nat) : Router := s.net.routers.get {} r
/-- The state with one router changed. -/
def State.updRouter (s : State) (r : Nat) (f : Router → Router) : State :=
  { s with net := { s.net with routers := s.net.routers.put r (f (s.router r)) } }
/-- A port's link has failed: after retries, taken down at either end, or with a failed router at either end
(R355, R356, R359). A link that system software took down is live again when its DOWN bit is cleared (DEDUCED,
notes/assumptions/14.md). -/
def linkFailed (s : State) (t p : Nat) : Bool :=
  match neighbour t p with
  | none => false
  | some u =>
    s.net.failedLinks.contains (t, p) || s.net.failedLinks.contains (u, backPort p) || (s.router t).down.testBit p ||
      (s.router u).down.testBit (backPort p) || s.net.failedRouters.contains t || s.net.failedRouters.contains u
/-- A port has a link that has not failed. -/
def linkLive (s : State) (t p : Nat) : Bool := (neighbour t p).isSome && !linkFailed s t p
/-- A tile is cut off: no link of its router is live, or its router has failed. -/
def cutOff (s : State) (t : Nat) : Bool := (List.range 6).all fun p => !linkLive s t p

/-! ### Distance tables (R344, R355) -/

/-- A link stands in the distance tables. -/
def tableLink (s : State) (t p : Nat) : Bool :=
  match neighbour t p with
  | none => false
  | some u =>
    !(s.net.knownLinks.contains (t, p) || s.net.knownLinks.contains (u, backPort p) || s.net.knownRouters.contains t ||
      s.net.knownRouters.contains u)
/-- The routers that a link of the tables joins to a router. -/
def tableNeighbours (s : State) (t : Nat) : List Nat :=
  (List.range 6).filterMap fun p => if tableLink s t p then neighbour t p else none
/-- From a router outwards: the routers at one distance less than the target, or none when it cannot be reached. -/
def nearer (s : State) (target : Nat) : Nat → List Nat → List Nat → Option (List Nat)
  | 0, _, _ => none
  | fuel + 1, front, seen =>
    let next := ((front.flatMap (tableNeighbours s)).eraseDups).filter fun t => !seen.contains t
    if front.isEmpty then none
    else if next.contains target then some front
    else nearer s target fuel next (next ++ seen)
/-- The productive ports of a router for a destination (R344). -/
def productive (s : State) (t dst : Nat) : List Nat :=
  match nearer s t 520 [dst] [dst] with
  | none => []
  | some l =>
    (List.range 6).filter fun p => tableLink s t p && (match neighbour t p with
      | some u => l.contains u
      | none => false)

/-- No message comes from one tile to another: a router at either end has failed, or the distance tables lead nowhere (R356). -/
def unreachable (s : State) (src dst : Nat) : Bool :=
  src != dst &&
    (s.net.failedRouters.contains src || s.net.failedRouters.contains dst ||
      (!(s.net.knownLinks.isEmpty && s.net.knownRouters.isEmpty) && (productive s src dst).isEmpty))

/-! ### Walks of the page tables (R401, R402) -/

/-- A page-table entry of 8 bytes is well formed at a level and its fields (R402). -/
def pteCheck (e level : Nat) : Bool :=
  let pa := e / 2 ^ 8 % 2 ^ 42 * 2 ^ 8
  let leaf := e.testBit 1
  e.testBit 0 && e / 2 ^ 50 == 0 && e / 2 ^ 6 % 4 == 0 &&
    (if level = 1 then !leaf else if level = 4 then leaf else true) &&
    (if leaf then pa % (if level = 2 then 2 ^ 30 else if level = 3 then 2 ^ 21 else 2 ^ 16) == 0
     else pa % (if level = 3 then 256 else 4096) == 0)

/-- The index of an address into a table of a level (R402). -/
def tableIndex (va level : Nat) : Nat :=
  if level = 1 then va / 2 ^ 39 % 512 else if level = 2 then va / 2 ^ 30 % 512 else if level = 3 then va / 2 ^ 21 % 512
  else va / 2 ^ 16 % 32
/-- The walk of a cluster from a table down the levels (R402): the TLB entry of the page, or the cause and the level that failed; a table
entry with an uncorrectable error gives POISON (R413), and one that no message reaches TILE_DOWN (R356). `fuel` counts the levels left. -/
def walkLevels (s : State) (cl va : Nat) : Nat → Nat → Except (Cause × Nat) TlbEntry
  | 0, _ => .error (.page, 4)
  | fuel + 1, table =>
    let level := 4 - fuel
    if ¬ (devBase ≤ table ∧ table < devEnd) then .error (.page, level)
    else
      let a := table + 8 * tableIndex va level
      let e := s.readN a 8
      let pa := e / 2 ^ 8 % 2 ^ 42 * 2 ^ 8
      if unreachable s cl (homeTile a) then .error (.tileDown, level)
      else if s.poison.contains (a / 32) then .error (.poison, level)
      else if !pteCheck e level then .error (.page, level)
      else if e.testBit 1 then
        let size := if level = 2 then 2 ^ 30 else if level = 3 then 2 ^ 21 else 2 ^ 16
        .ok { vbase := va / size * size, size := size, pbase := pa, u := e.testBit 5, repl := e.testBit 4,
              c := e.testBit 3, w := e.testBit 2 }
      else walkLevels s cl va fuel pa

/-- The page-table walk of a cluster (R401, R402). -/
def walkPage (s : State) (cl va : Nat) : Except (Cause × Nat) TlbEntry :=
  let root := (s.cluster cl).ptroot.toNat
  if root.testBit 0 then walkLevels s cl va 4 (root / 2 ^ 12 % 2 ^ 38 * 2 ^ 12) else .error (.page, 1)

/-- The TLB entry of an address (R135). -/
def tlbFind (t : List TlbEntry) (va : Nat) : Option TlbEntry := t.find? fun e => e.vbase ≤ va && va < e.vbase + e.size

/-- The rights and window of a translated address (R132, R134, R402). -/
def pageRights (e : TlbEntry) (sup write : Bool) (va : Nat) : Look :=
  let pa := e.pbase + (va - e.vbase)
  if (write && !e.w) || (!sup && !e.u) then .bad .prot 0
  else
    match homeAt pa with
    | .device => .ok pa { cached := e.c, wpage := e.w, repl := e.repl && !e.w }
    | .host | .peer _ _ => .ok pa { cached := e.c, wpage := e.w }
    | _ => .bad .page 0

/-- The physical address that an untranslated virtual address of a cluster core names (R131). -/
def fixedWindow (k va : Nat) : Option Nat :=
  if va < 0x20000 then some (tcmBase k + va)
  else if 0x400000 ≤ va ∧ va < 0x800000 then some (scratchBase (clusterOf k) + (va - 0x400000))
  else if 0xFFFFF00000000000 ≤ va then some (onChip + (va - 0xFFFFF00000000000))
  else none

/-- The local alias of a core's TCM: a write to its shadow-stack region is refused there (R106, R129, R131). -/
def aliasRights (s : State) (k : Nat) (sup write : Bool) (va : Nat) : Look :=
  if write && inShadow va then .bad .prot 0 else windowRights s k sup (tcmBase k + va)
/-- The physical address of an untranslated access of a core, if the address is one, and `none` for a translated range. -/
def lookFixed (s : State) (k : Nat) (sup write : Bool) (va : Nat) : Option Look :=
  if isGran k then
    some (if 2 ^ 50 ≤ va then .bad .page 0
      else if va < 0x20000 then aliasRights s k sup write va
      else
        match homeAt va with
        | .device => .ok va { cached := true, wpage := true }
        | _ => windowRights s k sup va)
  else if !canonical va then some (.bad .page 0)
  else
    match fixedWindow k va with
    | some pa => some (if va < 0x20000 then aliasRights s k sup write va else windowRights s k sup pa)
    | none => if 0x1000000 ≤ va ∧ va < 2 ^ 47 then none else some (.bad .page 0)

/-- The phase rule at one address of a cluster core (R317). -/
def phaseBars (s : State) (k va : Nat) : Bool :=
  !isGran k && (s.cluster (clusterOf k)).computePhase &&
    !(match fixedWindow k va with
      | some pa => localTo k pa
      | none => false)

/-- The lookup of one address by a core (R130 to R136, R317, R401). A write to a shadow stack through a core window is refused after
issue (R129). -/
def look (s : State) (k : Nat) (sup write : Bool) (va : Nat) : Look :=
  if phaseBars s k va then .bad .phase 0
  else
    match lookFixed s k sup write va with
    | some r => r
    | none =>
      if !(s.cluster (clusterOf k)).ptroot.getLsbD 0 then .bad .page 1
      else
        match tlbFind (s.cluster (clusterOf k)).tlb va with
        | some e => pageRights e sup write va
        | none => .miss

/-- The lookup of one address by an engine of a core: a missing translation is walked at once, and no engine writes a shadow stack
(R106, R135, R402). -/
def engLook (s : State) (k : Nat) (sup write : Bool) (va : Nat) : Look :=
  match look s k sup write va with
  | .miss =>
    match walkPage s (clusterOf k) va with
    | .ok e => pageRights e sup write va
    | .error e => .bad e.1 e.2
  | .ok pa a => if write && inShadowPa pa then .bad .prot 0 else .ok pa a
  | .bad c l => .bad c l

/-- The sector pieces of `n` bytes from an address: address, offset and length of each (R158). -/
def sectorPieces : Nat → Nat → Nat → Nat → List (Nat × Nat × Nat)
  | 0, _, _, _ => []
  | fuel + 1, va, off, n =>
    if n = 0 then []
    else
      let k := min n (32 - va % 32)
      (va, off, k) :: sectorPieces fuel ((va + k) % 2 ^ 64) (off + k) (n - k)

/-- The sector pieces of an access (R158). -/
def pieces (va n : Nat) : List (Nat × Nat × Nat) := sectorPieces (n / 32 + 2) va 0 n

/-! ### Events, rings in memory and status records -/

/-- An event source of R437 occurs: PEND is set, and if no event was pending, the host and the target core are told. No interrupt reaches
a frozen core (R448). -/
def State.raise (s : State) (src : Nat) : State :=
  let e := s.io.ev.get {} src
  let s := { s with io := { s.io with ev := s.io.ev.put src { e with pend := true } } }
  if e.pend then s
  else
    let s := if e.host then { s with io := { s.io with msix := s.io.msix ++ [src] } } else s
    if e.core && !s.io.frz then s.updCore (e.cluster * 8 + e.lcore) fun c => { c with irq := if c.irq.contains src then c.irq else c.irq ++ [src] }
    else s

/-- A count that stops at its largest value. -/
def capped (max n : Nat) : Nat := if max ≤ n then max else n

/-- The code of a cause (R396). -/
def Cause.code : Cause → Nat
  | .illegalEnc => 0x01 | .priv => 0x02 | .align => 0x03 | .page => 0x04 | .prot => 0x05 | .pcRange => 0x06
  | .ctrlIntegrity => 0x07 | .loopNest => 0x08 | .repForm => 0x09 | .helperLive => 0x0A | .helperRole => 0x0B
  | .targetRange => 0x0C | .userTrap => 0x0D | .scratchRange => 0x10 | .atomOp => 0x11 | .futFull => 0x12
  | .futBusy => 0x13 | .futForm => 0x14 | .wayLeaving => 0x15 | .phase => 0x16 | .accBusy => 0x18 | .ringOwned => 0x19
  | .ringForm => 0x1A | .shape => 0x1B | .millForm => 0x1C | .poison => 0x1D | .walkRows => 0x1E | .copyForm => 0x20
  | .copyAddr => 0x21 | .semOver => 0x22 | .xslot => 0x28 | .bellForm => 0x29 | .doneTarget => 0x2A | .collForm => 0x2B
  | .domainForm => 0x2C | .tileDown => 0x2D | .launchForm => 0x30 | .launchFit => 0x31 | .launchRole => 0x32
  | .spillFull => 0x33 | .lateForm => 0x34 | .glUndeclared => 0x38 | .glPartial => 0x39 | .glRead => 0x3A
  | .glEscape => 0x3B | .saveSize => 0x40 | .saveState => 0x41 | .saveForm => 0x42 | .savePage => 0x43
  | .doubleTrap => 0x44 | .coreFail => 0x45 | .curfForm => 0x46 | .interrupt => 0x48 | .copyOverflow => 0x50
  | .domainStall => 0x51 | .late => 0x52 | .childRange => 0x53 | .depthLimit => 0x54 | .nodeForm => 0x55

/-! ### The numbers of messages (R351) -/

/-- The key of an ordered pair and space. -/
def pairKey (src dst sp : Nat) : Nat := (src * 520 + dst) * 2 + sp
/-- The record of a pair and space. -/
def State.pair (s : State) (key : Nat) : Pair := s.net.pairs.get {} key
/-- The state with the record of a pair changed. -/
def State.updPair (s : State) (key : Nat) (f : Pair → Pair) : State :=
  { s with net := { s.net with pairs := s.net.pairs.upd {} key f } }
/-- The numbers of a list that follow on from a number are passed: the first number that is not in it, and the rest of the list. -/
def passOver (l : List Nat) (n : Nat) : Nat × List Nat :=
  l.foldl (fun (r : Nat × List Nat) _ => if r.2.contains r.1 then (r.1 + 1, r.2.erase r.1) else r) (n, l)
/-- A number of a pair is acknowledged (R351). -/
def Pair.ack (p : Pair) (n : Nat) : Pair :=
  if n < p.acked ∨ p.early.contains n then p
  else
    let (a, l) := passOver (n :: p.early) p.acked
    { p with acked := a, early := l }
/-- The next number of a pair is delivered; numbers that were dropped are passed over (R352, R356). -/
def Pair.delivered (p : Pair) : Pair :=
  let (d, l) := passOver p.lost (p.deliver + 1)
  { p with deliver := d, lost := l }
/-- A number of a pair is dropped on its way: it is never delivered, and its source takes it for acknowledged
(R356; DEDUCED, notes/assumptions/41.md). -/
def Pair.lose (p : Pair) (n : Nat) : Pair :=
  (if n = p.deliver then p.delivered else if n < p.deliver then p else { p with lost := p.lost ++ [n] }).ack n
/-- A pair after an event, `q`, keeps the turn of its messages before it, `p`: none of the numbers that the event took was delivered before
one that was on its way, and all lie within the window of 64 (R351, R352). -/
def Pair.keepsTurn (p q : Pair) : Bool :=
  (p.deliver == p.next || q.lost.all fun n => decide (n < p.next) || p.lost.contains n) &&
    (p.acked == p.next || q.next == p.next || decide (q.next ≤ p.acked + 64))
/-- A unit's message to another tile and its answer pass within one event: each takes the next number of its space and is delivered and
acknowledged at once (R343, R351; DESIGN CHOICE, notes/assumptions/13.md). -/
def State.exchanged (s : State) (src dst : Nat) : State :=
  let one := fun (s : State) (key : Nat) => s.updPair key fun p => ({ p with next := p.next + 1 } : Pair).lose p.next
  if src = dst then s else one (one s (pairKey src dst 0)) (pairKey dst src 1)

/-- The peer that an address names. -/
def peerOf (pa : Nat) : Nat := (pa - 0x2000000000000) / 2 ^ 44
/-- A unit of tile `src` exchanges a message and its answer with the home of an address; one to a peer also takes the next number of the
tile's sequence there (R351, R441; DESIGN CHOICE, notes/assumptions/13.md). -/
def State.messaged (s : State) (src pa : Nat) : State :=
  let s := s.exchanged src (homeTile pa)
  match homeAt pa with
  | .peer n _ => { s with io := { s.io with peerSeq := s.io.peerSeq.upd 0 (src * 16 + n) fun q => q + 1 } }
  | _ => s

/-- An event of a unit, whose messages pass within it, keeps the turn of the messages that are on their way, those to peers too. An event
that does not has to wait (R351, R352, R441; DESIGN CHOICE, notes/assumptions/13.md). -/
def State.inTurn (s t : State) : Bool :=
  (t.net.pairs.all fun e => (s.pair e.1).keepsTurn (t.pair e.1)) &&
    t.io.peerSeq.all fun e => t.io.peerSeq.get 0 e.1 == s.io.peerSeq.get 0 e.1 ||
      s.io.peerMsgs.all fun o => o.acked || tileOf o.access.core * 16 + peerOf o.access.pa != e.1
/-- The event takes place where it keeps their turn, and otherwise leaves the state as it is. -/
def State.ifInTurn (s t : State) : State := if s.inTurn t then t else s

/-! ### LLC slices (R138, R154 to R156, R414) -/

/-- The granule of a device address. -/
def granuleOf (pa : Nat) : Nat := (pa - devBase) / 2048
/-- The frames of one set of a slice. -/
def frameSet (g : Granary) (set : Nat) : List Frame := g.frames.filter fun f => sliceSet (devBase + f.granule * 2048) == set
/-- The frames that a set can hold: twelve, less those of retired sectors (R414). -/
def setSize (g : Granary) (set : Nat) : Nat := 12 - (g.gone.filter fun f => f.1 == set).length
/-- A frame is allocated in front, in place of the least recently used unpinned one when its set is full; none where every
frame is pinned (R154, R156; DESIGN CHOICE, notes/assumptions/9.md). -/
def allocFrame (g : Granary) (f : Frame) : Option Granary :=
  let set := sliceSet (devBase + f.granule * 2048)
  let fs := frameSet g set
  if fs.length < setSize g set then some { g with frames := f :: g.frames }
  else
    match (fs.filter fun x => !x.pin).getLast? with
    | some v => some { g with frames := f :: g.frames.erase v }
    | none => none
/-- The 4-byte words of a sector that `n` bytes from an address touch. -/
def wordMask (pa n : Nat) : Nat := (List.range 16).foldl (fun m w => if w * 4 < pa % 64 + n ∧ pa % 64 < w * 4 + 4 then m ||| 2 ^ w else m) 0
/-- What an access does to a sector of a slice: reads it, writes the bytes of these addresses, or reads and writes it. -/
inductive Touch where
  | read
  | write (bytes : List Nat)
  | modify
/-- A sector after an access: a read, and a write of part of a word, first fill it; a write of whole words sets their bits alone (R154,
R155). -/
def LlcSector.touched (x : LlcSector) : Touch → LlcSector
  | .read => { x with valid := true, mask := 65535 }
  | .modify => { valid := true, dirty := true, mask := 65535 }
  | .write bs =>
    let words := (bs.map fun a => a / 4).eraseDups
    if words.all fun w => (List.range 4).all fun j => bs.contains (w * 4 + j) then
      { valid := true, dirty := true, mask := words.foldl (fun m w => m ||| 2 ^ (w % 16)) x.mask }
    else { valid := true, dirty := true, mask := 65535 }
/-- The home slice takes an access to bytes of one sector into account: the frame is used or allocated, or the bypass
counter advances (R154 to R156). -/
def llcTouch (s : State) (pa : Nat) (touch : Touch) (demand : Bool) : State :=
  match homeAt pa with
  | .device =>
    s.updGranary (homeGran pa) fun g =>
      let gr := granuleOf pa
      let use := fun (f : Frame) => { f with sectors := f.sectors.upd {} (pa / 64 % 32) fun x => x.touched touch }
      match g.frames.find? fun f => f.granule == gr && !f.replica with
      | some f => { g with frames := use f :: g.frames.erase f }
      | none =>
        match allocFrame g (use { granule := gr }) with
        | some g => g
        | none => if demand then { g with bypass := capped (2 ^ 32 - 1) (g.bypass + 1) } else g
  | _ => s
/-- The home slices take reads of `n` bytes from an address into account. -/
def llcReads (s : State) (pa n : Nat) : State := (pieces pa n).foldl (fun s q => llcTouch s q.1 .read true) s
/-- The home slice takes a write of bytes from an address into account. -/
def llcWrite (s : State) (pa n : Nat) : State := llcTouch s pa (.write ((List.range n).map fun j => pa + j)) true

/-! ### The walker (R135, R402) -/

/-- An entry enters a cluster's TLB; it holds 1,024, the oldest of which gives way (R135). -/
def tlbAdd (c : Cluster) (e : TlbEntry) : Cluster :=
  let rest := c.tlb.filter fun x => x.vbase != e.vbase || x.size != e.size
  { c with tlb := e :: rest.take 1023, tlbOld := rest.drop 1023 ++ c.tlbOld.filter fun x => !(rest.drop 1023).contains x }
/-- The addresses of the table entries that a walk of a cluster asks for, from a table down the levels (R402). -/
def walkReads (s : State) (cl va : Nat) : Nat → Nat → List Nat
  | 0, _ => []
  | fuel + 1, table =>
    let level := 4 - fuel
    if ¬ (devBase ≤ table ∧ table < devEnd) then []
    else
      let a := table + 8 * tableIndex va level
      let e := s.readN a 8
      a :: (if unreachable s cl (homeTile a) || s.poison.contains (a / 32) || !pteCheck e level || e.testBit 1 then []
        else walkReads s cl va fuel (e / 2 ^ 8 % 2 ^ 42 * 2 ^ 8))
/-- A message of a unit that comes to no home is dropped at the router of its tile, which counts it (R356, R360). -/
def State.refusedAt (s : State) (t : Nat) : State := s.updRouter t fun x => { x with drop := capped 65535 (x.drop + 1) }
/-- The addresses that the walk of a cluster asks for (R401, R402). -/
def walkAsks (s : State) (cl va : Nat) : List Nat :=
  let root := (s.cluster cl).ptroot.toNat
  if root.testBit 0 then walkReads s cl va 4 (root / 2 ^ 12 % 2 ^ 38 * 2 ^ 12) else []
/-- The home slices take the reads of a cluster's walk into account (R156, R200, R356). -/
def walkTouch (s : State) (cl va : Nat) : State :=
  (walkAsks s cl va).foldl (fun s a =>
    if unreachable s cl (homeTile a) then s.refusedAt cl else (llcTouch s a .read true).exchanged cl (homeTile a)) s
/-- A walk of a cluster ends: the home slices have been read, and a page that it found enters the TLB (R135, R402). -/
def walked (s : State) (cl va : Nat) : State :=
  match walkPage s cl va with
  | .ok e => (walkTouch s cl va).updCluster cl fun c => tlbAdd c e
  | .error _ => walkTouch s cl va
/-- The home of a byte that an engine of a core accesses is not reached (R356). -/
def engCut (s : State) (k va : Nat) : Bool :=
  match engLook s k true false va with
  | .ok pa _ => unreachable s (tileOf k) (homeTile pa)
  | .miss | .bad .. => false
/-- The walks that an engine's access to `n` bytes needs are made, in address order (R135), and a message for it that comes to no home is
counted (R356, R360). -/
def engWalk (s : State) (k va n : Nat) : State :=
  let s :=
    if isGran k then s
    else (pieces va n).foldl (fun s q => if look s k true false q.1 == .miss then walked s (clusterOf k) q.1 else s) s
  if (pieces va n).any fun q => engCut s k q.1 then s.refusedAt (tileOf k) else s

/-- The peer answers requests (R441). -/
def peerUp (s : State) (n : Nat) : Bool :=
  let p := s.io.peers.get {} n
  p.en && !p.down
/-- Why a home cannot serve an access of a unit of tile `src` at a physical address: the home is not reached, a scratch offset lies beyond
the scratch part, or a unit does not answer (R149, R356, R436, R441). A write to the host is posted (R436). -/
def homeBars (s : State) (src : Nat) (write : Bool) (pa : Nat) : Option Cause :=
  if unreachable s src (homeTile pa) then some .tileDown
  else
    match homeAt pa with
    | .scratch cl off => if (s.cluster cl).ways.s * 0x40000 ≤ off then some .scratchRange else none
    | .host => if write || s.io.link then none else some .tileDown
    | .peer n _ => if peerUp s n then none else some .tileDown
    | .device | .tcm .. | .istore .. | .regs .. | .nowhere => none
/-- A posted write to the host that cannot be sent is dropped and counted (R436). -/
def State.lostWrite (s : State) : State := { s with io := { s.io with lost := capped (2 ^ 32 - 1) (s.io.lost + 1) } }
/-- Bytes of one sector are written at their home by a unit: a slice takes a write to device memory into account, and a write to the host
while its link is down is lost (R156, R436). A sector wholly written no longer holds an error (R413). -/
def State.putSector (s : State) (pa : Nat) (bs : List Byte) : State :=
  match homeAt pa with
  | .host => if s.io.link then s.write pa bs else s.lostWrite
  | _ =>
    let s := (llcWrite s pa bs.length).write pa bs
    if bs.length = 32 then { s with poison := s.poison.filter fun x => x != pa / 32 } else s

/-- Why a unit of the I/O die or the Reeve cannot write at a physical address: no window holds it, it is a register or in a shadow stack,
or its home does not answer (R106, R132, R134). -/
def physBar (s : State) (pa : Nat) : Option Cause :=
  match homeAt pa with
  | .nowhere => some .page
  | .regs _ _ => some .prot
  | _ => if inShadowPa pa then some .prot else homeBars s 512 true pa
/-- The first such cause in `n` bytes. -/
def physBars (s : State) (pa n : Nat) : Option Cause := (pieces pa n).findSome? fun q => physBar s q.1
/-- A physical write by a unit of the I/O die or the Reeve: none where it cannot be made. -/
def State.physWrite (s : State) (pa : Nat) (bs : List Byte) : Option State :=
  if (physBars s pa bs.length).isSome then none
  else some ((pieces pa bs.length).foldl (fun s q => (s.messaged 512 q.1).putSector q.1 ((bs.drop q.2.1).take q.2.2)) s)

/-- An address of a task record translated by the tables of a cluster of its partition (R363). -/
def recVirtual (s : State) (c : Nat) (write : Bool) (va : Nat) : Look :=
  if !canonical va then .bad .page 0
  else
    match fixedWindow (c * 8) va with
    | some pa => windowRights s (c * 8) true pa
    | none =>
      if 0x1000000 ≤ va ∧ va < 2 ^ 47 then
        match walkPage s c va with
        | .ok e => pageRights e true write va
        | .error e => .bad e.1 e.2
      else .bad .page 0
/-- The physical address of an address of a task record: itself for a Granary program, else translated by the tables of the
partition (R363, R370). A fault of the translation, of the rights or at the home gives its cause and its table level
(R392; DEDUCED, notes/assumptions/31.md). -/
def recAddr (s : State) (cl : Option Nat) (write : Bool) (va : Nat) : Except (Cause × Nat) Nat :=
  match (match cl with
    | none => Look.ok va {}
    | some c => recVirtual s c write va) with
  | .bad e l => .error (e, l)
  | .miss => .error (.page, 0)
  | .ok pa _ =>
    match homeAt pa with
    | .nowhere => .error (.page, 0)
    | .regs _ _ => .error (.prot, 0)
    | _ =>
      if write && inShadowPa pa then .error (.prot, 0)
      else
        match homeBars s 512 write pa with
        | some e => .error (e, 0)
        | none => .ok pa

/-- The clusters of a partition, in increasing order (R367). -/
def partClusters (s : State) (p : Nat) : List Nat := (List.range 384).filter fun c => (s.cluster c).part == p
/-- The cluster by whose tables the addresses of a record are translated, none where they are physical: the one noted at its acceptance, or
the first of its partition where that one is of another by now (R29, R363; DEDUCED, notes/assumptions/31.md). -/
def recTables (s : State) (r : TaskRec) : Option Nat :=
  r.cluster.map fun c => if (s.cluster c).part = r.part then c else (partClusters s r.part).headD c
/-- The physical pieces of an access at the addresses of a task record: address, offset and length. -/
def recPieces (s : State) (cl : Option Nat) (write : Bool) :
    List (Nat × Nat × Nat) → Except (Cause × Nat) (List (Nat × Nat × Nat))
  | [] => .ok []
  | (va, off, n) :: t =>
    match recAddr s cl write va with
    | .error e => .error e
    | .ok pa =>
      match recPieces s cl write t with
      | .error e => .error e
      | .ok l => .ok ((pa, off, n) :: l)

/-- The walks for the addresses of a task record are made (R156, R363). -/
def recWalk (s : State) (cl : Option Nat) (va n : Nat) : State :=
  match cl with
  | none => s
  | some c =>
    (pieces va n).foldl (fun s q => if (fixedWindow (c * 8) q.1).isNone && 0x1000000 ≤ q.1 && q.1 < 2 ^ 47 then walkTouch s c q.1 else s) s
/-- Bytes written at the addresses of a task record: every sector is checked first (R159). -/
def recWrite (s : State) (cl : Option Nat) (va : Nat) (bs : List Byte) : Except (Cause × Nat) State :=
  match recPieces s cl true (pieces va bs.length) with
  | .error e => .error e
  | .ok l =>
    .ok (l.foldl (fun s q => (s.messaged 512 q.1).putSector q.1 ((bs.drop q.2.1).take q.2.2)) (recWalk s cl va bs.length))

/-- STATE of a record as R33 numbers it. -/
def TaskState.code : TaskState → Nat
  | .queued => 0 | .spilled => 0 | .running => 1

/-- FLAGS of a status record (R33). -/
def TaskRec.flags (r : TaskRec) : Nat :=
  r.late.toNat + r.rlost.toNat * 2 + r.restarted.toNat * 4 + r.cfull.toNat * 8 + r.cbad.toNat * 16

/-- The 32 bytes of a status record (R33). -/
def statusBytes (r : TaskRec) (st exit time cause : Nat) : List Byte :=
  toBytes 4 st ++ toBytes 4 r.flags ++ toBytes 8 exit ++ toBytes 8 time ++ toBytes 8 cause

/-- The status record of a task written, or the cause and the table level that the write met. -/
def putStatus (s : State) (r : TaskRec) (st exit cause : Nat) : Except (Cause × Nat) State :=
  recWrite s (recTables s r) r.status (statusBytes r st exit s.tower.toNat cause)

/-- FLAGS of a status record written alone, where the write can be made (R374, R378). -/
def putFlags (s : State) (r : TaskRec) : State :=
  match recWrite s (recTables s r) (r.status + 4) (toBytes 4 r.flags) with
  | .ok s => s
  | .error _ => s

/-- The record of a ticket. -/
def State.rec? (s : State) (ticket : Nat) : Option TaskRec := s.reeve.recs.find? fun r => r.ticket == ticket
/-- The state with the record of a ticket changed. -/
def State.updRec (s : State) (ticket : Nat) (f : TaskRec → TaskRec) : State :=
  { s with reeve := { s.reeve with recs := s.reeve.recs.map fun r => if r.ticket = ticket then f r else r } }
/-- The state with one record removed from the pool. -/
def State.dropRec (s : State) (ticket : Nat) : State :=
  { s with reeve := { s.reeve with recs := s.reeve.recs.filter fun r => r.ticket != ticket } }
/-- A failure counted in RSTAT.REJ of a die (R386). -/
def State.countRej (s : State) (die : Nat) : State :=
  { s with reeve := { s.reeve with dies := s.reeve.dies.upd {} die fun d => { d with rej := capped 65535 (d.rej + 1) } } }

/-- A core returned to its reset state: free, with nothing in flight (R28, R379). Its TCM and instruction store are memory, and
pending interrupts are no resource of R19. -/
def freshCore (c : Core) : Core :=
  { last := c.last
    failed := c.failed
    lastPart := c.lastPart
    irq := c.irq
    sent := c.sent
    recv := c.recv
    wbOut := c.wbOut }

/-- A line of the cluster cache part loses its dirty bytes when its core mask names only these logical cores (R379). -/
def dropMine (mine : List Nat) (l : Line) : Option Line :=
  if !l.cores.isEmpty && l.cores.all (fun j => mine.contains j) then
    let keep := l.bytes.filter fun b => !b.2.2
    if keep.isEmpty then none else some { l with bytes := keep, cores := [] }
  else some l

/-- The cores of an attempt stop: dirty bytes, tiles, queued commands and helpers are discarded, none of it written back
(R379, R394). No change of a carve-out waits for their copies any more, no gathering counts their collectives, and the
stall census rearms (R41, R153). -/
def State.stopCores (s : State) (ks : List Nat) : State :=
  let s := ks.foldl (fun s k => s.updCore k freshCore) s
  let gs := s.gatherings.map fun g =>
    if g.closed then g else { g with members := g.members.filter fun c => !ks.contains c.core }
  let left := fun (w : Ways) => { w with waits := w.waits.filter fun c => !ks.contains c.1 }
  let s := { s with gatherings := gs.filter fun g => !g.members.isEmpty
                    clusters := s.clusters.map fun e => (e.1, { e.2 with ways := left e.2.ways }) }
  (((ks.filter fun k => !isGran k).map clusterOf).eraseDups).foldl (fun s cl =>
    (s.updCluster cl fun c =>
      { c with
        cc := c.cc.filterMap (dropMine ((ks.filter fun k => !isGran k && clusterOf k == cl).map lcoreOf)) }).rearm cl) s

/-- The cores on which a task stands: those that it has retired from, and those of which `save` and `rest` have switched it out, are none
(R377, R379, R409). -/
def State.holders (s : State) (ticket : Nat) : List Nat := (s.cores.filter fun e => e.2.task == some ticket).map Prod.fst
/-- A task ends with STATE 4 and a cause (R379, R393, R394). -/
def State.endTask (s : State) (ticket : Nat) (c : Cause) : State :=
  match s.rec? ticket with
  | none => s
  | some r =>
    let s := s.stopCores (s.holders ticket)
    let s := match putStatus s r 4 0 c.code with
      | .ok s => s
      | .error _ => s
    s.dropRec ticket

/-- A task may be restarted: RESTART is 1, RLOST is clear, and it has not been restarted before (R378, R379). -/
def TaskRec.restartable (r : TaskRec) : Bool := r.restart && !r.rlost && !r.restarted
/-- A hardware error ends an attempt of a task (R379): a restartable task returns to the pool with its ticket and age, never again
to a cluster of this attempt (R380), and any other ends with the error's cause. -/
def State.hardError (s : State) (ticket : Nat) (c : Cause) : State :=
  match s.rec? ticket with
  | none => s
  | some r =>
    if r.restartable then
      let s := s.stopCores (s.holders ticket)
      let r := { r with state := .queued, restarted := true, avoid := (r.cores.map clusterOf).eraseDups, cores := [], retired := [],
                        exit := 0, given := false }
      let s := s.updRec ticket fun _ => r
      match putStatus s r 0 0 0 with
      | .ok s => s
      | .error _ => s
    else s.endTask ticket c

/-- The partition that a core's traps and records belong to; partition 0 for a Granary core (R370). -/
def State.partOf (s : State) (k : Nat) : Nat := if isGran k then 0 else (s.cluster (clusterOf k)).part

/-- A trap record is appended to the partition's trap queue, or dropped and counted; event 3 is raised (R438). -/
def State.appendTrap (s : State) (k c : Nat) (causeWord : Nat) (resume : PC) : State :=
  let p := s.partOf k
  let q := s.io.trapq.get {} p
  let w1 := resume.toNat + c * 2 ^ 16 + lcoreOf k * 2 ^ 20 + tileOf k * 2 ^ 23
  let bs := toBytes 8 causeWord ++ toBytes 8 w1 ++ toBytes 8 s.tower.toNat ++ toBytes 8 0
  let drop := fun (s : State) =>
    { s with io := { s.io with trapq := s.io.trapq.put p { q with drop := capped 65535 (q.drop + 1) } } }
  let s :=
    if q.size = 0 ∨ (q.tail + 1) % q.size = q.head then drop s
    else
      match s.physWrite (q.base.toNat + q.tail * 32) bs with
      | none => drop s
      | some s => { s with io := { s.io with trapq := s.io.trapq.put p { q with tail := (q.tail + 1) % q.size } } }
  s.raise 3

/-! ### Taking an exception (R390, R393, R394) -/

/-- TRAPCAUSE as a word (R389). -/
def TrapCause.word (t : TrapCause) : Nat :=
  t.info.toNat * 2 ^ 32 + t.logix % 128 * 2 ^ 16 + t.sel % 16 * 2 ^ 12 + t.inh.toNat * 2 ^ 11 + t.skip.toNat * 2 ^ 10 +
    t.ppriv.toNat * 2 ^ 9 + t.after.toNat * 2 ^ 8 + t.code % 256

/-- TRAPVEC.BASE, IE and EN (R389). -/
def vecBase (v : Word) : PC := v.extractLsb' 0 13
def vecIE (v : Word) : Bool := v.getLsbD 16
def vecEN (v : Word) : Bool := v.getLsbD 17

/-- What a trap reports (R390). -/
structure TrapInfo where
  cause : Cause
  info : BitVec 32 := 0
  after : Bool := false
  logix : Nat := 0
  deriving DecidableEq, Repr

/-- The trap registers, loop state and handler mark of a context that takes a trap at its program counter (R390). -/
def Ctx.enter (x : Ctx) (t : TrapInfo) (stamp : Nat) : Ctx :=
  { x with
    cause := { info := t.info, logix := t.logix, sel := 0, inh := true, skip := false, ppriv := x.sup, after := t.after,
               code := t.cause.code }
    trapPc := x.pc
    ls := { x.ls with held := x.ls.act, act := false }
    handler := stamp :: x.handler
    since := none
    tendStep := x.tendStep }

/-- The checks of a Gleaner body are suspended while its owner's handler runs (R430), and the loop buffer is released by a loop that the
trap has taken out of the active state (R116). -/
def State.suspend (s : State) (k c : Nat) : State :=
  s.updCore k fun y =>
    { y with gl := if y.gl.own = c then { y.gl with suspended := true } else y.gl, loopBuf := y.loopBuf.filter fun b => b.1 != c }

/-- A context takes a trap at its program counter, which is the resume address (R390): the trap registers are written,
and the context enters the handler at supervisor privilege; with TRAPVEC.EN 0 it is delegated (R393); with INH 1 the task
ends with DOUBLE_TRAP (R394). -/
def State.takeTrap (s : State) (k c : Nat) (t : TrapInfo) : State :=
  let x := s.ctx k c
  if x.cause.inh then
    match (s.core k).task with
    | some ticket => s.endTask ticket .doubleTrap
    | none => s.stopCores [k]
  else
    let s := s.updCtx k c fun x => x.enter t (s.stamp + 2)
    let s := s.suspend k c
    let v := (s.core k).trapvec
    if vecEN v then
      s.updCtx k c fun x => { x with sup := true, pc := vecBase v, run := .ready, yieldFor := [], yieldStay := [] }
    else
      let s := s.updCtx k c fun x => { x with run := .delegated, yieldFor := [], yieldStay := [] }
      s.appendTrap k c (s.ctx k c).cause.word x.pc

/-- The issuing bundle does not issue: its context takes a fault detected at issue (R47). -/
def State.trap (s : State) (c : Cause) (info : BitVec 32 := 0) : State :=
  (s.takeTrap s.cur.core s.cur.ctx { cause := c, info := info }).updCur fun x => { x with out := .trap, fault := some (c, info) }

/-- A privileged instruction: PRIV at user privilege, else its effect (R57). -/
def State.privileged (s : State) (f : State → State) : State := if s.me.sup then f s else s.trap .priv

/-- The issuing bundle waits for an operand or for room in a queue (R22; DEDUCED, notes/assumptions/7.md). -/
def State.stall (s : State) : State :=
  (s.updMe fun c => { c with run := .stalled }).updCur fun x => { x with out := .stall }

/-- The issuing context blocks on a condition (R24). -/
def State.block (s : State) (w : Wait) : State :=
  (s.updMe fun c => { c with run := .blocked w }).updCur fun x => { x with out := .block }

/-- A fault detected after issue is reported to a context (R391). -/
def State.report (s : State) (k c : Nat) (r : Report) : State := s.updCtx k c fun x => { x with reports := x.reports ++ [r] }

/-! ### The end-of-body check (R112) -/

/-- The program counter and loop state after a bundle at `pc` whose own effect gives `next`; `taken` says that its C slot
is a taken br, conditional branch or jr (R112). -/
def endOfBody (x : Ctx) (pc next : PC) (taken : Bool) : Ctx :=
  let l := x.ls
  let last : PC := l.start + BitVec.ofNat 13 l.len - 1
  if l.act ∧ l.sdep = l.ldep then
    if taken ∧ l.len ≤ (next - l.start).toNat then
      { x with ls := { l with act := false, rep := false }, pc := next }
    else if pc = last ∧ next = last + 1 then
      if 1 < x.lc.toNat then
        { x with lc := x.lc - 1, pc := l.start,
                 ls := { l with rot := if l.rep ∧ l.win ≠ 0 then (l.rot + 1) % l.win else l.rot } }
      else { x with lc := 0, ls := { l with act := false, rep := false }, pc := next }
    else { x with pc := next }
  else { x with pc := next }

/-- A context leaves the bundle at its program counter: the end-of-body check runs once (R112). -/
def State.leave (s : State) (k c : Nat) (next : PC) (taken : Bool) : State :=
  s.updCtx k c fun x => endOfBody x x.pc next taken

end Sys2Proof.Machine
end

