-- ==== Sys2Proof/Machine/Operands.lean ====
section
/-! DEFINITION. The operand forms: immediates, targets and effective addresses (R51, R162), the integer operand as a type
reads it (R96), and the renaming of repeat mode (R115). -/

namespace Sys2Proof

/-- The width of an integer type of the A slot, 32 or 64 (R96). -/
def Ty.w : Ty → Nat
  | .i32 => 32 | .n32 => 32
  | .i8 => 8 | .n8 => 8 | .e4m3 => 8 | .e5m2 => 8
  | .i16 => 16 | .n16 => 16 | .bf16 => 16 | .f16 => 16
  | .f32 => 32
  | .lut4 => 4
  | .i64 => 64 | .n64 => 64 | .f64 => 64 | .res15 => 64
/-- A signed integer type (R75). -/
def Ty.signed : Ty → Bool
  | .i8 | .i16 | .i32 | .i64 => true
  | .n8 | .n16 | .n32 | .n64 | .f64 | .f32 | .bf16 | .f16 | .e4m3 | .e5m2 | .lut4 | .res15 => false

end Sys2Proof

namespace Sys2Proof.Machine

/-- A sign-extended immediate (R51, R96). -/
def sx {n : Nat} (imm : BitVec n) : Word := imm.signExtend 64
/-- A zero-extended immediate (R51, R96). -/
def zx {n : Nat} (imm : BitVec n) : Word := imm.setWidth 64

/-- The target of a CJ or CB form: the program counter plus disp14, mod 8,192 (R51). -/
def dispTarget (pc : PC) (disp : BitVec 14) : PC := pc + disp.setWidth 13

/-- The effective address of a CI form (R162). -/
def State.eaCI (s : State) (a : R5) (imm : BitVec 14) : Word := s.srcG a + sx imm
/-- The effective address of an indexed form (R162). -/
def State.eaIdx (s : State) (a b : R5) (sft : BitVec 4) : Word := s.srcG a + s.srcG b <<< sft.toNat

/-- A number of `w` bits read as two's complement. -/
def toSigned (w n : Nat) : Int := if n % 2 ^ w < 2 ^ (w - 1) then (n % 2 ^ w : Nat) else (n % 2 ^ w : Nat) - (2 ^ w : Nat)
/-- S(x): the low W bits of a source (R96). -/
def opS (t : Ty) (x : Word) : Nat := x.toNat % 2 ^ t.w
/-- SV(x): the source as a value of its type (R96). -/
def opSV (t : Ty) (x : Word) : Int := if t.signed then toSigned (t.w) x.toNat else (opS t x : Int)
/-- Ext(y): reduced mod 2^W and extended to 64 bits by the type (R96). -/
def opExt (t : Ty) (y : Int) : Word :=
  let r := (y % (2 ^ t.w : Nat)).toNat
  if t.signed then BitVec.ofInt 64 (toSigned (t.w) r) else BitVec.ofNat 64 r

/-- A name inside a window of `win` names from `lo` is replaced by the name rotated by `rot` (R115). -/
def rotated (lo win rot : Nat) (r : R5) : R5 :=
  if lo ≤ r.toNat ∧ r.toNat < lo + win then BitVec.ofNat 5 (lo + (r.toNat - lo + rot) % win) else r

/-- The renaming of an issuing bundle: that of the windows while ACT and REP are 1 and WIN is not zero (R115). -/
def Ls.renaming (l : Ls) : Renaming :=
  if l.act ∧ l.rep ∧ l.win ≠ 0 then
    { g := rotated 16 l.win l.rot, v := rotated 8 (min l.win 8) l.rot, t := rotated 8 (min l.win 8) l.rot }
  else { g := fun r => r, v := fun r => r, t := fun r => r }

/-- The base of a tree walk's registers, as renamed, names gb to g(b + 2) without g0 (R270, R273). -/
def walkBase (b : R5) : Bool := 1 ≤ b.toNat && b.toNat ≤ 29

/-- The lanes of a vector register at a width: lane `j` (R215). -/
def lane (v : VWord) (w j : Nat) : Nat := v.toNat / 2 ^ (w * j) % 2 ^ w
/-- The vector register whose lanes at a width are those of a list, lane 0 first. -/
def ofLanes (w : Nat) : List Nat → Nat
  | [] => 0
  | x :: t => x % 2 ^ w + 2 ^ w * ofLanes w t
/-- The vector register with lane `j` given by a function, for `n` lanes of width `w`. -/
def mkLanes (w n : Nat) (f : Nat → Nat) : VWord := BitVec.ofNat 512 (ofLanes w ((List.range n).map f))
/-- The bytes of a vector register, byte 0 first (R161). -/
def vBytes (v : VWord) (n : Nat) : List Byte := toBytes n v.toNat

end Sys2Proof.Machine
end

