-- ==== Sys2Proof/Machine/Flags.lean ====
section
/-! DEFINITION. Every flag computation: the floating formats, exact values, rounding with its flags, conversions, and the
flags of MSTAT (R69 to R93). -/

namespace Sys2Proof.Machine

/-- A floating format: exponent bits, fraction bits and bias (R69). `e4m3` has no infinities. -/
structure Fmt where
  eb : Nat
  mb : Nat
  bias : Nat
  e4m3 : Bool := false
  deriving DecidableEq, Repr

end Sys2Proof.Machine

namespace Sys2Proof

/-- The rounding mode that a code names, 0 meaning MSTAT.RM (R52, R76). -/
def Rm.resolve (r : Rm) (mstat : Nat) : Rm := if r = .dflt then (if mstat = 2 then .rtz else if mstat = 3 then .rup else if mstat = 4 then .rdn else .rne) else r

/-- The format of a type (R69); other types count as f32. -/
def Ty.fmt : Ty → Machine.Fmt
  | .f64 => ⟨11, 52, 1023, false⟩
  | .bf16 => ⟨8, 7, 127, false⟩
  | .f16 => ⟨5, 10, 15, false⟩
  | .e5m2 => ⟨5, 2, 15, false⟩
  | .e4m3 => ⟨4, 3, 7, true⟩
  | .f32 | .i8 | .i16 | .i32 | .i64 | .n8 | .n16 | .n32 | .n64 | .lut4 | .res15 => ⟨8, 23, 127, false⟩

end Sys2Proof

namespace Sys2Proof.Machine

/-- Two sets of flags joined (R93). -/
def Flags.or (a b : Flags) : Flags :=
  { nx := a.nx || b.nx, uf := a.uf || b.uf, ovf := a.ovf || b.ovf, dz := a.dz || b.dz, nv := a.nv || b.nv,
    isat := a.isat || b.isat, csat := a.csat || b.csat, nfskip := a.nfskip || b.nfskip }
/-- Flags as bits 12:4 of MSTAT (R92). -/
def Flags.bits (f : Flags) : Nat :=
  f.nx.toNat * 2 ^ 4 + f.uf.toNat * 2 ^ 5 + f.ovf.toNat * 2 ^ 6 + f.dz.toNat * 2 ^ 7 + f.nv.toNat * 2 ^ 8 +
    f.isat.toNat * 2 ^ 9 + f.csat.toNat * 2 ^ 11 + f.nfskip.toNat * 2 ^ 12
/-- Flags with those cleared whose bits a written word holds (W1C, R9, R92). -/
def Flags.clear (f : Flags) (w : Nat) : Flags :=
  { nx := f.nx && !w.testBit 4, uf := f.uf && !w.testBit 5, ovf := f.ovf && !w.testBit 6, dz := f.dz && !w.testBit 7,
    nv := f.nv && !w.testBit 8, isat := f.isat && !w.testBit 9, csat := f.csat && !w.testBit 11,
    nfskip := f.nfskip && !w.testBit 12 }
/-- Flags ORed into a core's MSTAT (R93). -/
def State.orFlags (s : State) (k : Nat) (f : Flags) : State :=
  s.updCore k fun c => { c with mstat := { c.mstat with fl := c.mstat.fl.or f } }

/-- The width of a format in bits. -/
def Fmt.width (f : Fmt) : Nat := 1 + f.eb + f.mb
/-- The all-ones exponent. -/
def Fmt.emax (f : Fmt) : Nat := 2 ^ f.eb - 1

/-- What an encoding denotes (R70): a NaN with its sign, whether it signals, its fraction and that fraction's width; an
infinity; or (−1)^neg × m × 2^e. -/
inductive FVal where
  | nan (neg sig : Bool) (frac mb : Nat)
  | inf (neg : Bool)
  | fin (neg : Bool) (m : Nat) (e : Int)
  deriving DecidableEq, Repr

/-- The value of an encoding (R70). -/
def Fmt.decode (f : Fmt) (x : Nat) : FVal :=
  let neg := x.testBit (f.eb + f.mb)
  let e := x / 2 ^ f.mb % 2 ^ f.eb
  let m := x % 2 ^ f.mb
  if e = 0 then .fin neg m (1 - (f.bias : Int) - f.mb)
  else if e = f.emax ∧ !f.e4m3 then
    if m = 0 then .inf neg else .nan neg (!m.testBit (f.mb - 1)) m f.mb
  else if e = f.emax ∧ m = 2 ^ f.mb - 1 then .nan neg false m f.mb
  else .fin neg (2 ^ f.mb + m) ((e : Int) - f.bias - f.mb)

/-- The sign bit of a format, placed. -/
def Fmt.sign (f : Fmt) (neg : Bool) : Nat := if neg then 2 ^ (f.eb + f.mb) else 0
/-- The default NaN (R71). -/
def Fmt.nan (f : Fmt) : Nat := if f.e4m3 then 0x7F else f.emax * 2 ^ f.mb + 2 ^ (f.mb - 1)
/-- The largest finite magnitude (R69). -/
def Fmt.largest (f : Fmt) : Nat := if f.e4m3 then 0x7E else (f.emax - 1) * 2 ^ f.mb + (2 ^ f.mb - 1)
/-- The magnitude of an infinity; e4m3 has none and gives its largest value (R77, R79). -/
def Fmt.infinity (f : Fmt) : Nat := if f.e4m3 then 0x7E else f.emax * 2 ^ f.mb

/-- A result of floating arithmetic: its bits and the flags it raises. -/
structure FRes where
  bits : Nat
  fl : Flags := {}
  deriving DecidableEq, Repr

/-- Whether a rounding moves away from zero, from the kept integer, the part cut off and half a unit (R76). -/
def roundsUp (rm : Rm) (neg : Bool) (hi lo half : Nat) : Bool :=
  match rm with
  | .rtz => false
  | .rup => !neg && lo != 0
  | .rdn => neg && lo != 0
  | .rne | .dflt | .res5 | .res6 | .res7 => half < lo || (lo == half && hi % 2 == 1)

/-- m × 2^e cut to a multiple of 2^q and rounded: the integer multiple, and whether it is inexact (R76). -/
def roundAt (rm : Rm) (neg : Bool) (m : Nat) (e q : Int) : Nat × Bool :=
  if q ≤ e then (m * 2 ^ (e - q).toNat, false)
  else
    let k := (q - e).toNat
    let hi := m / 2 ^ k
    let lo := m % 2 ^ k
    (if roundsUp rm neg hi lo (2 ^ (k - 1)) then hi + 1 else hi, lo != 0)

/-- The encoding that an overflow gives, with its flags (R77). -/
def overflow (f : Fmt) (rm : Rm) (neg : Bool) : FRes :=
  if f.e4m3 then { bits := f.sign neg + f.largest, fl := { csat := true } }
  else
    let toInf := match rm with
      | .rtz => false
      | .rup => !neg
      | .rdn => neg
      | .rne | .dflt | .res5 | .res6 | .res7 => true
    { bits := f.sign neg + (if toInf then f.infinity else f.largest), fl := { ovf := true, nx := true } }

/-- (−1)^neg × m × 2^e rounded to a format (R76 to R78). -/
def roundTo (f : Fmt) (rm : Rm) (neg : Bool) (m : Nat) (e : Int) : FRes :=
  if m = 0 then { bits := f.sign neg }
  else
    let top : Int := e + Nat.log2 m
    let emin : Int := 1 - (f.bias : Int)
    let q : Int := max top emin - f.mb
    let (r, inexact) := roundAt rm neg m e q
    let (r, q) := if r = 2 ^ (f.mb + 1) then (2 ^ f.mb, q + 1) else (r, q)
    let be : Nat := (q + f.mb + f.bias).toNat
    if (f.e4m3 ∧ (15 < be ∨ (be = 15 ∧ r = 15))) ∨ (!f.e4m3 ∧ f.emax ≤ be ∧ 2 ^ f.mb ≤ r) then overflow f rm neg
    else
      let free := (roundAt rm neg m e (top - f.mb)).1
      let tiny : Bool := top < emin - 1 ∨ (top = emin - 1 ∧ free < 2 ^ (f.mb + 1))
      { bits := f.sign neg + (if r < 2 ^ f.mb then r else be * 2 ^ f.mb + (r - 2 ^ f.mb)),
        fl := { nx := inexact, uf := inexact && tiny } }

/-- A term of an exact sum: its sign, its magnitude and its exponent. -/
abbrev Term := Bool × Nat × Int

/-- The least exponent of a list of terms. -/
def minExp : List Term → Int
  | [] => 0
  | [(_, _, e)] => e
  | (_, _, e) :: t => min e (minExp t)
/-- The exact sum of terms, as a multiple of 2^q for an exponent q not above any of theirs. -/
def sumAt (q : Int) : List Term → Int
  | [] => 0
  | (n, m, e) :: t => (if n then -((m * 2 ^ (e - q).toNat : Nat) : Int) else ((m * 2 ^ (e - q).toNat : Nat) : Int)) + sumAt q t

/-- The exact sum of terms, rounded once; the sign of an exact zero is that of R86 (R76 to R78, R81, R86). -/
def roundSum (f : Fmt) (rm : Rm) (ts : List Term) : FRes :=
  let q := minExp ts
  let x := sumAt q ts
  if x = 0 then
    let allNeg := ts.all fun t => t.1 && t.2.1 == 0
    let allPos := ts.all fun t => !t.1 && t.2.1 == 0
    { bits := f.sign (allNeg || (rm == .rdn && !allPos)) }
  else roundTo f rm (x < 0) x.natAbs q

/-- The value is a NaN, and it signals. -/
def FVal.isNan : FVal → Bool
  | .nan .. => true
  | .inf _ => false
  | .fin .. => false
def FVal.isSig : FVal → Bool
  | .nan _ s _ _ => s
  | .inf _ => false
  | .fin .. => false
/-- The sign of a value. -/
def FVal.neg : FVal → Bool
  | .nan n _ _ _ => n
  | .inf n => n
  | .fin n _ _ => n
/-- The value is a zero. -/
def FVal.isZero : FVal → Bool
  | .fin _ m _ => m == 0
  | .nan .. => false
  | .inf _ => false

/-- A NaN carried into a format: quiet, of the same sign, with the top payload bits that fit (R79). -/
def quietTo (f : Fmt) (neg : Bool) (frac mb : Nat) : Nat :=
  if f.e4m3 then f.sign neg + 0x7F
  else
    let p := if mb ≤ f.mb then frac * 2 ^ (f.mb - mb) else frac / 2 ^ (mb - f.mb)
    f.sign neg + f.emax * 2 ^ f.mb + (if p.testBit (f.mb - 1) then p else p + 2 ^ (f.mb - 1))

/-- The NaN result of an operation: its first NaN operand, else the default NaN with NV (R81, R82). -/
def nanOf (f : Fmt) (xs : List FVal) : FRes :=
  let nv := xs.any FVal.isSig
  match xs.find? FVal.isNan with
  | some (.nan n _ fr mb) => { bits := quietTo f n fr mb, fl := { nv := nv } }
  | some (.inf _) | some (.fin ..) | none => { bits := f.nan, fl := { nv := true } }

/-- Conversion between floating formats (R79). -/
def convert (f : Fmt) (rm : Rm) : FVal → FRes
  | .nan n s fr mb => { bits := quietTo f n fr mb, fl := { nv := s } }
  | .inf n => { bits := f.sign n + f.infinity, fl := { csat := f.e4m3 } }
  | .fin n m e => roundTo f rm n m e

/-- a + b (R81, R217). -/
def fAdd (f : Fmt) (rm : Rm) (a b : FVal) : FRes :=
  match a, b with
  | .fin n m e, .fin n' m' e' => roundSum f rm [(n, m, e), (n', m', e')]
  | .inf n, .inf n' => if n = n' then { bits := f.sign n + f.infinity } else nanOf f [a, b]
  | .inf n, .fin .. => { bits := f.sign n + f.infinity }
  | .fin .., .inf n => { bits := f.sign n + f.infinity }
  | .nan .., _ => nanOf f [a, b]
  | _, .nan .. => nanOf f [a, b]
/-- The value negated. -/
def FVal.negate : FVal → FVal
  | .nan n s f m => .nan n s f m
  | .inf n => .inf (!n)
  | .fin n m e => .fin (!n) m e
/-- a × b (R81, R217). -/
def fMul (f : Fmt) (rm : Rm) (a b : FVal) : FRes :=
  match a, b with
  | .fin n m e, .fin n' m' e' => roundTo f rm (n != n') (m * m') (e + e')
  | .inf n, .inf n' => { bits := f.sign (n != n') + f.infinity }
  | .inf n, .fin n' m' _ => if m' = 0 then nanOf f [a, b] else { bits := f.sign (n != n') + f.infinity }
  | .fin n m _, .inf n' => if m = 0 then nanOf f [a, b] else { bits := f.sign (n != n') + f.infinity }
  | .nan .., _ => nanOf f [a, b]
  | _, .nan .. => nanOf f [a, b]
/-- A quotient of magnitudes with enough bits that one sticky bit rounds it rightly: the number and its exponent. -/
def quotient (f : Fmt) (m : Nat) (e : Int) (m' : Nat) (e' : Int) : Nat × Int :=
  let k := f.mb + 4 + Nat.log2 m'
  let n := m * 2 ^ k
  (4 * (n / m') + (if n % m' = 0 then 0 else 1), e - e' - k - 2)
/-- a ÷ b (R81, R217). -/
def fDiv (f : Fmt) (rm : Rm) (a b : FVal) : FRes :=
  match a, b with
  | .fin n m e, .fin n' m' e' =>
    if m' = 0 then
      if m = 0 then nanOf f [a, b] else { bits := f.sign (n != n') + f.infinity, fl := { dz := true } }
    else
      let (x, y) := quotient f m e m' e'
      roundTo f rm (n != n') x y
  | .inf _, .inf _ => nanOf f [a, b]
  | .inf n, .fin n' .. => { bits := f.sign (n != n') + f.infinity }
  | .fin n .., .inf n' => { bits := f.sign (n != n') }
  | .nan .., _ => nanOf f [a, b]
  | _, .nan .. => nanOf f [a, b]
/-- d + a × b with one rounding, or d − a × b when `sub` (R81, R82, R217). -/
def fFma (f : Fmt) (rm : Rm) (sub : Bool) (a b d : FVal) : FRes :=
  if a.isNan || b.isNan || d.isNan then
    let r := nanOf f [a, b, d]
    let bad := match a, b with
      | .inf _, .fin _ m _ => m == 0
      | .fin _ m _, .inf _ => m == 0
      | _, _ => false
    { r with fl := { r.fl with nv := r.fl.nv || bad } }
  else
    let ps := (a.neg != b.neg) != sub
    match a, b with
    | .fin _ m e, .fin _ m' e' =>
      match d with
      | .fin n c x => roundSum f rm [(n, c, x), (ps, m * m', e + e')]
      | .inf n => { bits := f.sign n + f.infinity }
      | .nan .. => nanOf f [a, b, d]
    | _, _ =>
      if a.isZero || b.isZero then nanOf f [a, b, d]
      else
        match d with
        | .inf n => if n = ps then { bits := f.sign n + f.infinity } else nanOf f [a, b, d]
        | .fin .. => { bits := f.sign ps + f.infinity }
        | .nan .. => nanOf f [a, b, d]
/-- The integer square root, one bit of the result for each unit of fuel. -/
def isqrt (n : Nat) : Nat → Nat → Nat
  | 0, r => r
  | k + 1, r => let t := r + 2 ^ k; isqrt n k (if t * t ≤ n then t else r)
/-- The square root (R81, R217). -/
def fSqrt (f : Fmt) (rm : Rm) (a : FVal) : FRes :=
  match a with
  | .fin n m e =>
    if m = 0 then { bits := f.sign n }
    else if n then nanOf f [a]
    else
      let k := 2 * (f.mb + 4)
      let (m, e) := if (e - k) % 2 = 0 then (m * 2 ^ k, e - k) else (m * 2 ^ (k + 1), e - k - 1)
      let r := isqrt m (Nat.log2 m / 2 + 1) 0
      roundTo f rm false (4 * r + (if r * r = m then 0 else 1)) (e / 2 - 2)
  | .inf n => if n then nanOf f [a] else { bits := f.infinity }
  | .nan .. => nanOf f [a]

/-- a < b, for values that are no NaN; −0 equals +0. -/
def fLt (a b : FVal) : Bool :=
  match a, b with
  | .fin n m e, .fin n' m' e' => sumAt (min e e') [(n, m, e)] < sumAt (min e e') [(n', m', e')]
  | .inf n, .inf n' => n && !n'
  | .inf n, _ => n
  | _, .inf n' => !n'
  | _, _ => false
/-- a = b, for values that are no NaN; −0 equals +0. -/
def fEq (a b : FVal) : Bool :=
  match a, b with
  | .fin n m e, .fin n' m' e' => sumAt (min e e') [(n, m, e)] == sumAt (min e e') [(n', m', e')]
  | .inf n, .inf n' => n == n'
  | _, _ => false
/-- The encoding of a value that the format holds. -/
def encodeExact (f : Fmt) (a : FVal) : FRes := convert f .rne a
/-- The minimum (or maximum when `mx`) of IEEE 754-2019: a NaN operand gives a NaN, and −0 is below +0 (R81). -/
def fMin (f : Fmt) (mx : Bool) (a b : FVal) : FRes :=
  if a.isNan || b.isNan then nanOf f [a, b]
  else
    let aLess := fLt a b || (fEq a b && a.neg && !b.neg)
    encodeExact f (if aLess != mx then a else b)

/-- A floating value to an integer of `w` bits (R80). -/
def floatToInt (rm : Rm) (w : Nat) (signed : Bool) (a : FVal) : FRes :=
  let lo : Int := if signed then -(2 ^ (w - 1) : Nat) else 0
  let hi : Int := if signed then (2 ^ (w - 1) : Nat) - 1 else (2 ^ w : Nat) - 1
  let wrap := fun (x : Int) => (x % (2 ^ w : Nat)).toNat
  match a with
  | .nan .. => { bits := 0, fl := { nv := true } }
  | .inf n => { bits := wrap (if n then lo else hi), fl := { nv := true } }
  | .fin n m e =>
    let (r, inexact) := roundAt rm n m e 0
    let x : Int := if n then -(r : Int) else r
    if x < lo then { bits := wrap lo, fl := { nv := true } }
    else if hi < x then { bits := wrap hi, fl := { nv := true } }
    else { bits := wrap x, fl := { nx := inexact } }
/-- An integer to a floating format (R80). -/
def intToFloat (f : Fmt) (rm : Rm) (x : Int) : FRes := roundTo f rm (x < 0) x.natAbs 0

/-- An integer lane as its type reads it. -/
def intOf (t : Ty) (x : Nat) : Int := if t.signed then toSigned (t.w) x else ((x % 2 ^ t.w : Nat) : Int)

/-- One element converted from one type to another (R79, R80, R218, R307). -/
def convertElem (td ts : Ty) (rm : Rm) (x : Nat) : FRes :=
  let wd := td.w
  if td = ts then { bits := x % 2 ^ wd }
  else if ts.isFloat then
    let v := ts.fmt.decode x
    if td.isFloat then convert td.fmt rm v else floatToInt rm wd td.signed v
  else if td.isFloat then intToFloat td.fmt rm (intOf ts x)
  else { bits := (intOf ts x % (2 ^ wd : Nat)).toNat }

/-- One element combined into another: add, minimum or maximum, in a type (R307). The old value is operand a. -/
def combineElem (op : Nat) (t : Ty) (rm : Rm) (o v : Nat) : FRes :=
  let w := t.w
  if t.isFloat then
    let f := t.fmt
    let a := f.decode o
    let b := f.decode v
    if op = 1 then fAdd f rm a b else fMin f (op == 3) a b
  else
    let a := intOf t o
    let b := intOf t v
    let r := if op = 1 then a + b else if op = 2 then min a b else max a b
    { bits := (r % (2 ^ w : Nat)).toNat }

end Sys2Proof.Machine
end

