-- ==== Sys2Proof/Machine/Memory.lean ====
section
/-! DEFINITION. The core side of memory: messages, the write buffer, L1, the cluster cache part, outstanding operations,
releases and acquires, and the waking of blocked contexts (R139 to R147, R158 to R167, R182, R185 to R187). -/

namespace Sys2Proof.Machine

/-! ### Program order -/

/-- The program-order stamp of the slot that acts: the C slot before the A slot of one bundle (R45, R183). -/
def State.now (s : State) : Nat := s.stamp + s.cur.slotA.toNat
/-- The free counter advanced: what was read from it is never read again (DESIGN CHOICE, notes/assumptions/30.md). -/
def State.spend (s : State) : State := { s with freeCtr := s.freeCtr + 1 }

/-! ### Instructions by kind -/

/-- The plain loads (R161): bytes, whether the value is sign-extended, and whether it goes to a vector register. -/
def loadForm : Instr → Option (Nat × Bool × Bool)
  | .ldb .. | .ldbx .. => some (1, true, false)
  | .ldbn .. | .ldbnx .. => some (1, false, false)
  | .ldh .. | .ldhx .. => some (2, true, false)
  | .ldhn .. | .ldhnx .. => some (2, false, false)
  | .ldw .. | .ldwx .. => some (4, true, false)
  | .ldwn .. | .ldwnx .. => some (4, false, false)
  | .ldd .. | .lddx .. => some (8, false, false)
  | .ldq .. | .ldqx .. => some (32, false, true)
  | .ldv .. | .ldvx .. => some (64, false, true)
  | _ => none
/-- The plain stores (R161). -/
def isPlainStore : Instr → Bool
  | .stb .. | .stbx .. | .sth .. | .sthx .. | .stw .. | .stwx .. | .std .. | .stdx .. | .stq .. | .stqx .. | .stv ..
  | .stvx .. => true
  | _ => false
/-- The remote loads: bytes (R165). -/
def remoteLoad : Instr → Option Nat
  | .rldw .. => some 4
  | .rldd .. => some 8
  | _ => none
/-- The remote stores: bytes (R165). -/
def remoteStore : Instr → Option Nat
  | .rstw .. => some 4
  | .rstd .. => some 8
  | _ => none
/-- The atomics: operation number in the order of R168, ordering, scope and type. -/
def atomicForm : Instr → Option (Nat × MemOrd × Scope × Ty)
  | .aadd _ _ _ o s t => some (0, o, s, t)
  | .aand _ _ _ o s t => some (1, o, s, t)
  | .aor _ _ _ o s t => some (2, o, s, t)
  | .axor _ _ _ o s t => some (3, o, s, t)
  | .amin _ _ _ o s t => some (4, o, s, t)
  | .amax _ _ _ o s t => some (5, o, s, t)
  | .aswp _ _ _ o s t => some (6, o, s, t)
  | .acas _ _ _ o s t => some (7, o, s, t)
  | _ => none
/-- The acquire that an operation performs when its access is performed, with its scope (R147, R163, R168, R173). -/
def acquireOf : Instr → Option Scope
  | .ldbx _ _ _ .acq sc _ | .ldbnx _ _ _ .acq sc _ | .ldhx _ _ _ .acq sc _ | .ldhnx _ _ _ .acq sc _
  | .ldwx _ _ _ .acq sc _ | .ldwnx _ _ _ .acq sc _ | .lddx _ _ _ .acq sc _ | .ldqx _ _ _ .acq sc _
  | .ldvx _ _ _ .acq sc _ => some sc
  | .frd .. => some .dev
  | i =>
    match atomicForm i with
    | some (_, .acq, sc, _) => some sc
    | some (_, .ar, sc, _) => some sc
    | some (_, .pl, _, _) | some (_, .rel, _, _) | none => none
/-- Loads in the sense of R185: plain and remote loads. Atomics and `frd` are not counted (DEDUCED, notes/assumptions/44.md). -/
def isLoad (i : Instr) : Bool := (loadForm i).isSome || (remoteLoad i).isSome
/-- Remote forms, atomics and future operations, which a release waits for (R146). -/
def isSyncOp (i : Instr) : Bool :=
  (remoteLoad i).isSome || (remoteStore i).isSome || (atomicForm i).isSome ||
    match i with
    | .frd .. | .fwr .. => true
    | _ => false

/-- Operations that write their location at its home (R165, R168, R172). -/
def isHomeWrite (i : Instr) : Bool := isSyncOp i && (remoteLoad i).isNone

/-! ### Messages (R343, R351) -/

/-- The interface of a tile or I/O-die router. -/
def State.iface (s : State) (t : Nat) : Iface := s.net.ifaces.get {} t
/-- The state with one interface changed. -/
def State.updIface (s : State) (t : Nat) (f : Iface → Iface) : State :=
  { s with net := { s.net with ifaces := s.net.ifaces.put t (f (s.iface t)) } }

/-- Lines on their way to cores are not kept when they come: their answers go to the operations that asked, but not into the caches
(R191; DESIGN CHOICE, notes/assumptions/9.md). -/
def unkeep (s : State) (ks : List Nat) (f : Part → Bool) : State :=
  let mark := fun (e : Nat × Op) => (e.1, { e.2 with parts := e.2.parts.map fun p => if f p then { p with keep := false } else p })
  ks.foldl (fun s k =>
    if (s.core k).ops.isEmpty && (s.core k).fetches.isEmpty then s
    else s.updCore k fun x => { x with ops := x.ops.map mark, fetches := x.fetches.map mark }) s
/-- Cached pieces of a sector that cores have asked of its home are asked again when their answers come: bytes of the sector leave for
the home, which may have answered before (R142, R143, R185; DEDUCED, notes/assumptions/44.md). -/
def askAgain (s : State) (ks : List Nat) (sector : Nat) : State :=
  let mark := fun (e : Nat × Op) =>
    (e.1, { e.2 with parts := e.2.parts.map fun p => if p.sent && p.attrC && p.pa / 32 == sector then { p with again := true } else p })
  ks.foldl (fun s k =>
    if (s.core k).ops.isEmpty && (s.core k).fetches.isEmpty then s
    else s.updCore k fun x => { x with ops := x.ops.map mark, fetches := x.fetches.map mark }) s
/-- The cores whose loads pass through the same cluster cache part. -/
def cacheCores (k : Nat) : List Nat := if isGran k then [k] else coresOf (clusterOf k)

/-- A line without the bytes that are not dirty; with none left it goes. -/
def Line.dirtyOnly (l : Line) : Option Line :=
  let d := l.bytes.filter fun b => b.2.2
  if d.isEmpty then none else some { l with bytes := d }
/-- The clean copies of a sector in a core's L1 and in its cluster's cache part go, once a home-performed write of the core to it has
been performed (R168, R191). -/
def dropCopies (s : State) (k sector : Nat) : State :=
  let f := fun (ls : List Line) => ls.filterMap fun l => if l.addr = sector then l.dirtyOnly else some l
  let s := s.updCore k fun x => { x with l1 := f x.l1 }
  let s := unkeep s (cacheCores k) fun p => p.pa / 32 == sector
  if isGran k then s else s.updCluster (clusterOf k) fun c => { c with cc := f c.cc }

/-- The cache-maintenance instructions (R178). -/
def isMaint : Instr → Bool
  | .cwb .. | .cinv .. | .cwbi .. | .cpin .. | .cunpin .. | .pref .. => true
  | _ => false
/-- The operation is a `pref`, which never faults (R179). -/
def isPref : Instr → Bool
  | .pref .. => true
  | _ => false
/-- The address of a piece of an operation. -/
def Op.partAddr (o : Op) (p : Nat) : Word := BitVec.ofNat 64 ((o.parts[p]?.map fun q => q.va).getD o.ea.toNat)
/-- The operation has faulted at an address below that of a piece, which its FADDR keeps (R397). -/
def Op.faultsBelow (o : Op) (p : Nat) : Bool := o.flt.isSome && o.faddr.toNat ≤ (o.partAddr p).toNat
/-- A context no longer waits in the `frd` of an entry: it is ready, or was when a stop halted it (R22, R24). -/
def leaveFrd (s : State) (k c e : Nat) : State :=
  s.updCtx k c fun x =>
    if x.run = .blocked (.frd e) then { x with run := .ready }
    else if x.run = .halted (.blocked (.frd e)) then { x with run := .halted .ready }
    else x
/-- An answer reaches the operation that asked (R162, R166, R397): its part is filled, or the operation is marked faulted
and its context told, the lowest of several failing pieces naming the fault. An answer to an operation that has been discarded changes nothing. -/
def answerTo (s : State) (ask : Asker) (k' c stamp : Nat) (bytes : List Byte) (err : Option (Cause × BitVec 32)) : State :=
  let fillPart := fun (o : Op) (p : Nat) =>
    match err with
    | none => { o with parts := o.parts.mapIdx fun i q => if i = p then { q with got := some bytes } else q }
    | some (cz, info) => if o.faultsBelow p then o else { o with flt := some cz, info := info, faddr := o.partAddr p }
  match ask with
  | .op k e p =>
    let s := s.updCore k fun x => { x with recv := x.recv + 1 }
    match Tab.find (s.core k).ops e with
    | none => s
    | some o =>
      if o.stamp ≠ stamp then s
      else if isPref o.instr then
        s.updCore k fun x => { x with ops := x.ops.put e { o with parts := o.parts.mapIdx fun i q => if i = p then { q with got := some bytes } else q } }
      else
        let s := s.updCore k fun x => { x with ops := x.ops.put e (fillPart o p) }
        let s := match o.parts[p]? with
          | some q => if isHomeWrite o.instr then dropCopies s k (q.pa / 32) else s
          | none => s
        match err with
        | none => s
        | some (cz, info) =>
          if o.flt.isNone then (leaveFrd s k c e).report k c { cause := cz, info := info, entry := some e, stamp := stamp }
          else if o.faultsBelow p then s
          else
            let told := fun (r : Report) => if r.entry = some e ∧ r.stamp = stamp then { r with cause := cz, info := info } else r
            s.updCtx k c fun x => { x with reports := x.reports.map told }
  | .fetch k i p =>
    let s := s.updCore k fun x => { x with recv := x.recv + 1 }
    match Tab.find (s.core k).fetches i with
    | none => s
    | some o => if o.stamp ≠ stamp then s else s.updCore k fun x => { x with fetches := x.fetches.put i (fillPart o p) }
  | .wback ks =>
    ks.foldl (fun s k => s.updCore k fun x => { x with wbOut := x.wbOut - 1 }) (s.updCore k' fun x => { x with recv := x.recv + 1 })
  | .none => s

/-- A future's value reaches its parked reader (R172): the take is complete at home, and its value waits for the return. -/
def wakeReader (s : State) (k c : Nat) (v : Word) : State :=
  match (s.core k).ops.find? fun e => e.2.ctx == c && e.2.stage == .parked with
  | some (e, _) =>
    s.updCore k fun x =>
      { x with ops := x.ops.upd {} e fun o =>
          { o with stage := .wait, parts := o.parts.map fun q => { q with got := some (toBytes 8 v.toNat) } } }
  | none => s

/-- A message is handed to the unit of its destination tile (R352). Accesses, `done` messages and acknowledgements wait there
for the events that perform them. -/
def deliverUnit (s : State) (t : Nat) (m : Msg) : State :=
  match m.body with
  | .access a => s.updIface t fun x => { x with arr := x.arr ++ [a] }
  | .answer ask k c stamp bytes err _ => answerTo s ask k c stamp bytes err
  | .wake k c v => wakeReader s k c v
  | .done .. => s.updIface t fun x => { x with ctl := x.ctl ++ [m.body] }
  | .report k c r => s.report k c r
  | .lane p => s.updCluster p.dst fun x => { x with lane := x.lane ++ [p] }
  | .ack .. => s.updIface t fun x => { x with acks := x.acks ++ [m] }

/-- The sequence space of a message: 0 forward, 1 replies. -/
def spaceOf (m : Msg) : Nat := if m.cls = .reply then 1 else 0
/-- The message is an acknowledgement. -/
def isAck (m : Msg) : Bool :=
  match m.body with
  | .ack .. => true
  | .access .. | .answer .. | .wake .. | .done .. | .report .. | .lane .. => false
/-- A unit submits a message: within one tile it is delivered without the open plane (R139), else it enters the source
interface in submission order and receives the next number of its space (R351). -/
def State.submit (s : State) (src dst : Nat) (cls : MsgClass) (b : Body) : State :=
  let m : Msg := { src := src, dst := dst, cls := cls, body := b }
  if src = dst then deliverUnit s dst m
  else
    let key := pairKey src dst (spaceOf m)
    let n := (s.pair key).next
    (s.updPair key fun p => { p with next := n + 1 }).updIface src fun x => { x with out := x.out ++ [{ m with seq := n }] }

/-- A core submits an access to the home of its address, or to its nearest slice for a replicated page (R139, R140). -/
def sendAccess (s : State) (a : Access) : State :=
  let dst := if a.replica then nearestSlice a.core else homeTile a.pa
  (s.updCore a.core fun x => { x with sent := x.sent + 1 }).submit (tileOf a.core) dst .request (.access a)

/-- Masked bytes of a sector are written to their home by a core; the cores whose bytes they are count the write until it is performed
(R146). An error of the line that held them goes with them (R413; DESIGN CHOICE, notes/assumptions/46.md), and the stores that the
write-buffer entry has written over (R149). -/
def sendWrite (s : State) (k sector : Nat) (owners : List Nat) (bytes : Tab (Byte × Nat × Nat)) (err : Bool := false)
    (hid : List (Nat × Nat × Nat) := []) : State :=
  if bytes.isEmpty then s
  else
    let s := askAgain s (cacheCores k) sector
    sendAccess (owners.foldl (fun s j => s.updCore j fun x => { x with wbOut := x.wbOut + 1 }) s)
      { kind := .write, pa := sector * 32, n := 32, data := bytes, hid := hid, core := k, ctx := 0, stamp := 0, asker := .wback owners,
        err := err }

/-! ### Lines of L1 and of the cluster cache part (R143, R144) -/

/-- The line of a sector. -/
def findLine (ls : List Line) (addr : Nat) : Option Line := ls.find? fun l => l.addr == addr
/-- The lines with one moved to the front, in its new form: the latest used. -/
def useLine (ls : List Line) (l : Line) : List Line := l :: ls.filter fun x => x.addr != l.addr
/-- The least recently used line of a set, when the set holds `ways` lines other than the one sought
(DESIGN CHOICE, notes/assumptions/9.md). -/
def victim (ls : List Line) (sets ways addr : Nat) : Option Line :=
  let set := ls.filter fun l => l.addr % sets == addr % sets && l.addr != addr
  if set.length < ways then none else set.getLast?
/-- The dirty bytes of a line. -/
def Line.dirty (l : Line) : Tab Byte := l.bytes.filterMap fun b => if b.2.2 then some (b.1, b.2.1) else none
/-- A line with every byte clean. -/
def Line.clean (l : Line) : Line := { l with bytes := l.bytes.map fun b => (b.1, b.2.1, false), cores := [] }
/-- Fetched bytes laid under the dirty bytes that a line holds (R143). A line that holds all its bytes stays as it is. -/
def Line.under (l : Line) (bs : List Byte) : Line :=
  if l.bytes.length = 32 then l
  else
    { l with bytes := (List.range 32).map fun i =>
        match Tab.find l.bytes i with
        | some (b, true) => (i, b, true)
        | some (_, false) | none => (i, bs.getD i 0, false) }
/-- The cores of a cluster whose writes a line of its cache part holds (R144). -/
def Line.owners (l : Line) (cl : Nat) : List Nat := l.cores.map fun j => cl * 8 + j
/-- Bytes written dirty into a line. -/
def Line.overlay (l : Line) (bs : Tab Byte) : Line := { l with bytes := bs.foldl (fun t b => Tab.put t b.1 (b.2, true)) l.bytes }

/-- Bytes with those that a table lists laid over them. -/
def overlay (pre : Tab Byte) (bs : List Byte) : List Byte := bs.mapIdx fun i b => Tab.get pre b i
/-- Bytes as a masked write. -/
def masked (bs : Tab Byte) : Tab (Byte × Nat × Nat) := bs.map fun b => (b.1, b.2, 11, 0)

/-- The cache ways of a cluster; ways that are joining the scratch part take no lines any more (R149, R153). -/
def Cluster.cacheWays (c : Cluster) : Nat := 16 - (if c.ways.joining then c.ways.change.getD c.ways.s else c.ways.s)

/-- One access of a core to the cluster cache part counts in the sampling sets (R152): A counts it, L a hit in the least recently used
way, G a hit in the shadow tag, which holds the line that one further way would still hold. The counters go on counting while AUTO is 0
(DESIGN CHOICE, notes/assumptions/9.md). -/
def sampleAccess (s : State) (k addr : Nat) : State :=
  if isGran k ∨ addr % 8192 % 128 ≠ 0 then s
  else
    s.updCluster (clusterOf k) fun c =>
      let set := c.cc.filter fun l => l.addr % 8192 == addr % 8192
      let hit := set.any fun l => l.addr == addr
      let lru := hit && set.length == c.cacheWays && (set.getLast?.map fun l => l.addr) == some addr
      let gh := !hit && c.ways.shadow.find (addr % 8192) == some addr
      { c with ways := { c.ways with a := c.ways.a + 1, l := c.ways.l + lru.toNat, g := c.ways.g + gh.toNat,
                                     shadow := if c.cacheWays = 0 then c.ways.shadow.put (addr % 8192) addr else c.ways.shadow } }
/-- A line of the cluster cache part is used, in its new form; a victim of its set leaves with its dirty bytes, and the shadow tag of a
sampling set holds it from now on (R144, R152). -/
def ccPut (s : State) (k : Nat) (l : Line) : State :=
  let cl := clusterOf k
  let c := s.cluster cl
  match victim c.cc 8192 c.cacheWays l.addr with
  | none => s.updCluster cl fun c => { c with cc := useLine c.cc l }
  | some x =>
    let s := s.updCluster cl fun c =>
      { c with cc := useLine (c.cc.filter fun y => y.addr != x.addr) l,
               ways := if x.addr % 8192 % 128 = 0 then { c.ways with shadow := c.ways.shadow.put (x.addr % 8192) x.addr } else c.ways }
    sendWrite s k x.addr (x.owners cl) (masked x.dirty) x.bad

/-- The dirty bytes of a core's line laid over a line of the cluster cache part (R144). -/
def Line.takeIn (x l : Line) (j : Nat) : Line :=
  { x.overlay l.dirty with cores := if x.cores.contains j then x.cores else j :: x.cores, bad := x.bad || l.bad }
/-- The dirty bytes of a core's line are written into the cluster cache part, or to the home when there are no cache ways
(R143 to R145). -/
def ccWrite (s : State) (k : Nat) (l : Line) : State :=
  if l.dirty.isEmpty then s
  else
    let s := sampleAccess s k l.addr
    let c := s.cluster (clusterOf k)
    if isGran k ∨ c.cacheWays = 0 then sendWrite s k l.addr [k] (masked l.dirty) l.bad
    else ccPut s k (((findLine c.cc l.addr).getD { addr := l.addr, wpage := l.wpage, bytes := [] }).takeIn l (lcoreOf k))

/-- RLOST is set when a dirty line of a restartable task is evicted (R143, R378). -/
def loseRestart (s : State) (k : Nat) : State :=
  match (s.core k).task with
  | none => s
  | some t =>
    match s.rec? t with
    | none => s
    | some r =>
      if r.restart ∧ !r.rlost then
        putFlags (s.updRec t fun r => { r with rlost := true }) { r with rlost := true }
      else s

/-- A line is used in L1; a victim of its set leaves with its dirty bytes (R143). -/
def l1Use (s : State) (k : Nat) (l : Line) : State :=
  let v := victim (s.core k).l1 256 8 l.addr
  let s := s.updCore k fun c =>
    { c with l1 := useLine (match v with
        | some x => c.l1.filter fun y => y.addr != x.addr
        | none => c.l1) l }
  match v with
  | some x => if x.dirty.isEmpty then s else loseRestart (ccWrite s k x) k
  | none => s

/-- The line of the cluster cache part for a sector of a core. -/
def ccLine (s : State) (k addr : Nat) : Option Line := if isGran k then none else findLine (s.cluster (clusterOf k)).cc addr
/-- Fetched bytes of a line with the dirty bytes that the cluster cache part holds for it laid over them (R143, R144). -/
def ccMerge (s : State) (k addr : Nat) (bs : List Byte) : List Byte :=
  match ccLine s k addr with
  | some l => overlay l.dirty bs
  | none => bs
/-- A fetched line enters the cluster cache part, clean, under the dirty bytes that it holds (R144). -/
def ccFill (s : State) (k addr : Nat) (wpage : Bool) (bs : List Byte) : State :=
  let c := s.cluster (clusterOf k)
  if isGran k ∨ c.cacheWays = 0 then s
  else ccPut s k (((findLine c.cc addr).getD { addr := addr, wpage := wpage, bytes := [] }).under bs)
/-- A fetched line fills the cluster cache part and L1, under the bytes they hold (R143, R144). -/
def fillLine (s : State) (k addr : Nat) (wpage : Bool) (bs : List Byte) : State :=
  let bs := ccMerge s k addr bs
  let s := ccFill s k addr wpage bs
  let l := ((findLine (s.core k).l1 addr).getD { addr := addr, wpage := wpage, bytes := [] }).under bs
  l1Use s k { l with bad := l.bad || (ccLine s k addr).any fun x => x.bad }

/-! ### The write buffer (R142) -/

/-- The bank of an address: bits 6:5 xor bits 8:7. -/
def wbBank (pa : Nat) : Nat := (pa / 32 % 4) ^^^ (pa / 128 % 4)
/-- The youngest write-buffer byte at an address. -/
def wbByte (wb : List WbEntry) (pa : Nat) : Option Byte :=
  match (wb.reverse.find? fun e => e.sector == pa / 32 && (Tab.find e.bytes (pa % 32)).isSome) with
  | some e => (Tab.find e.bytes (pa % 32)).map fun b => b.1
  | none => none
/-- A core's own valid byte at an address: from the write buffer, else from L1 (R142). -/
def Core.heldByte (c : Core) (cached : Bool) (pa : Nat) : Option Byte :=
  match wbByte c.wb pa with
  | some b => some b
  | none => if cached then (findLine c.l1 (pa / 32)).bind fun l => (Tab.find l.bytes (pa % 32)).map fun b => b.1 else none
/-- The bytes of a piece that the core holds, by offset. -/
def Core.heldBytes (c : Core) (cached : Bool) (pa n : Nat) : Tab Byte :=
  (List.range n).filterMap fun i => (c.heldByte cached (pa + i)).map fun b => (i, b)
/-- A byte of a cached page that a core keeps over a fetched one: from the write buffer, else a dirty one of L1 (R142, R143). -/
def Core.keptByte (c : Core) (pa : Nat) : Option Byte :=
  match wbByte c.wb pa with
  | some b => some b
  | none => (findLine c.l1 (pa / 32)).bind fun l => Tab.find l.dirty (pa % 32)

/-- An entry holds a home-performed store of a context to a home (R183, R186). -/
def WbEntry.goesTo (e : WbEntry) (c home : Nat) : Bool :=
  !e.cached && homeTile (e.sector * 32) == home && (e.bytes.any (fun b => b.2.2.1 == c) || e.hid.any fun h => h.2.1 == c)
/-- Bytes of a store laid over those of an entry. Of each context, the oldest store that is written over at a byte stays known
(R142, R149, R186, R243; DEDUCED, notes/assumptions/44.md). -/
def WbEntry.mergeIn (x e : WbEntry) : WbEntry :=
  { x with
    bytes := e.bytes.foldl (fun t b => Tab.put t b.1 b.2) x.bytes
    hid := e.bytes.foldl (fun l b =>
      match Tab.find x.bytes b.1 with
      | some o => if o.2 = b.2.2 ∨ l.any (fun h => h.1 == b.1 && h.2.1 == o.2.1) then l else l ++ [(b.1, o.2)]
      | none => l) x.hid }
/-- The entry that a store merges into: the youngest of its bank when it holds the same sector (R142). -/
def wbMerge (wb : List WbEntry) (e : WbEntry) : Option WbEntry :=
  match wb.reverse.find? fun x => x.bank == e.bank with
  | some y => if y.sector = e.sector then some y else none
  | none => none
/-- The store merges into the entry that takes it, or takes a new one (R142). -/
def wbPut (wb : List WbEntry) (e : WbEntry) : List WbEntry :=
  match wbMerge wb e with
  | some y => wb.map fun x => if x = y then x.mergeIn e else x
  | none => wb ++ [e]
/-- The write buffer has room for the pieces of a store, which enter together (R142). -/
def wbRoom (wb : List WbEntry) : List Part → Bool
  | [] => true
  | p :: t =>
    let e : WbEntry := { bank := wbBank p.pa, sector := p.pa / 32, cached := p.attrC, wpage := p.attrW, bytes := [(0, 0, 0, 0)] }
    (decide ((wb.filter fun x => x.bank == e.bank).length < 16) || (wbMerge wb e).isSome) && wbRoom (wbPut wb e) t
/-- The pieces of a store enter the write buffer, without the bytes that `skip` names by virtual address (R142, R425). -/
def wbEnter (s : State) (k c stamp : Nat) (ps : List Part) (data : List Byte) (skip : Nat → Bool) : State :=
  ps.foldl (fun s p =>
    let bs : Tab (Byte × Nat × Nat) := (List.range p.n).filterMap fun i =>
      if skip (p.va + i) then none else some (p.pa % 32 + i, data.getD (p.off + i) 0, c, stamp)
    if bs.isEmpty then s
    else s.updCore k fun x =>
      { x with wb := wbPut x.wb { bank := wbBank p.pa, sector := p.pa / 32, cached := p.attrC, wpage := p.attrW, bytes := bs } }) s

/-! ### Outstanding operations (R158, R164, R397) -/

/-- The lowest number below `max` that a table does not use. -/
def freeKey {α : Type} (t : Tab α) : Nat → Nat → Option Nat
  | 0, _ => none
  | fuel + 1, j => if (Tab.find t j).isSome then freeKey t fuel (j + 1) else some j
/-- A free entry among 0 to 63 of the operand log (R397; DEDUCED, notes/assumptions/10.md). -/
def Core.freeEntry (c : Core) : Option Nat := freeKey c.ops 64 0

/-- The outcome of resolving the pieces of an access. -/
inductive Resolved where
  | ok (ps : List Part)
  /-- the cause, the address and the table level, from the first piece that fails -/
  | bad (c : Cause) (va : Nat) (level : Nat)
  /-- a translation is missing -/
  | miss
  deriving DecidableEq, Repr

/-- The pieces of an access resolved in address order, by a lookup: the lowest piece that fails is named, and one whose translation is
missing is walked before a higher one fails (R158, R159). -/
def resolveWith (f : Nat → Look) : List (Nat × Nat × Nat) → Resolved
  | [] => .ok []
  | (va, off, n) :: t =>
    match f va with
    | .bad c l => .bad c va l
    | .miss => .miss
    | .ok pa a =>
      match resolveWith f t with
      | .bad c v l => .bad c v l
      | .miss => .miss
      | .ok ps => .ok ({ va := va, pa := pa, off := off, n := n, attrC := a.cached, attrW := a.wpage, attrR := a.repl } :: ps)
/-- An access of a core resolved through its TLB. -/
def resolve (s : State) (k : Nat) (sup write : Bool) (va n : Nat) : Resolved := resolveWith (look s k sup write) (pieces va n)
/-- An access of an engine of a core resolved, walking where the TLB misses. -/
def engResolve (s : State) (k : Nat) (sup write : Bool) (va n : Nat) : Resolved := resolveWith (engLook s k sup write) (pieces va n)

/-- INFO of PAGE and PROT: the access writes, and the table level; of DONE_TARGET: the bell, which stands in `level` (R392). -/
def accessInfo (c : Cause) (write : Bool) (level lane : Nat) : BitVec 32 :=
  match c with
  | .page | .prot => BitVec.ofNat 32 (write.toNat + level * 2 + lane * 2 ^ 16)
  | .align | .scratchRange | .phase => BitVec.ofNat 32 (lane * 2 ^ 16)
  | .doneTarget => BitVec.ofNat 32 level
  | _ => 0

/-- What reads: a load, a `fetch`, which puts nothing into L1 (R167), or a `pref` (R179). -/
inductive Reader where
  | load | fetch | pref
  deriving DecidableEq, Repr
/-- A piece of a load or a fetch meets an uncorrectable error in a line: of L1, or of the cluster cache part where L1 does not hold the
piece; the bytes that the write buffer holds need no line (R413). -/
def lineError (s : State) (k : Nat) (rd : Reader) (p : Part) : Bool :=
  let x := s.core k
  rd != .pref && p.attrC && !((List.range p.n).all fun i => (wbByte x.wb (p.pa + i)).isSome) &&
    ((findLine x.l1 (p.pa / 32)).any (fun l => l.bad) ||
      ((x.heldBytes true p.pa p.n).length != p.n && (ccLine s k (p.pa / 32)).any fun l => l.bad))
/-- A piece of a reader is taken from what the core holds, from the cluster cache part, or asked of its home (R142 to R144, R167). A piece
in the core's own TCM is read at once. One that meets an error in a line is answered so at the core's own tile (R413). -/
def sendLoadPart (s : State) (k c stamp : Nat) (mk : Nat → Asker) (rd : Reader) (i : Nat) (p : Part) : State × Part :=
  let x := s.core k
  let held := x.heldBytes p.attrC p.pa p.n
  let ask := fun (s : State) (kind : AccessKind) (pa n : Nat) =>
    (sendAccess s { kind := kind, pa := pa, n := n, core := k, ctx := c, stamp := stamp, asker := mk i, replica := p.attrR,
                    pref := rd == .pref },
      { p with sent := true, again := false, got := none })
  if lineError s k rd p then
    let a : Access := { kind := .read, pa := p.pa, n := p.n, core := k, ctx := c, stamp := stamp, asker := mk i, err := true }
    (s.updIface (tileOf k) fun x => { x with arr := x.arr ++ [a] }, { p with sent := true, again := false, got := none })
  else if held.length = p.n ∧ rd ≠ .pref then
    let s := match findLine x.l1 (p.pa / 32) with
      | some l => if p.attrC then l1Use s k l else s
      | none => s
    (s, { p with sent := false, again := false, got := some (held.map fun b => b.2) })
  else
    match homeAt p.pa with
    | .tcm k' _ =>
      if k' = k ∧ !s.poison.contains (p.pa / 32) then (s, { p with got := some (overlay held (s.read p.pa p.n)) })
      else ask s .read p.pa p.n
    | _ =>
      if p.attrC then
        let s := sampleAccess s k (p.pa / 32)
        match ccLine s k (p.pa / 32) with
        | some l =>
          if l.bytes.length = 32 then
            let bs := l.bytes.map fun b => b.2.1
            let now := (List.range p.n).map fun j => (x.keptByte (p.pa + j)).getD (bs.getD (p.pa % 32 + j) 0)
            let s := s.updCluster (clusterOf k) fun c => { c with cc := useLine c.cc l }
            if rd = .load then (fillLine s k (p.pa / 32) p.attrW bs, { p with sent := false, again := false, got := some now })
            else (s, { p with sent := false, again := false, got := some (if rd = .pref then bs else now) })
          else ask s .readLine (p.pa / 32 * 32) 32
        | none => ask s .readLine (p.pa / 32 * 32) 32
      else ask s .read p.pa p.n

/-- Every piece of a reader is sent in order, but for those that have their bytes. -/
def sendLoadParts (s : State) (k c stamp : Nat) (mk : Nat → Asker) (rd : Reader) : Nat → List Part → State × List Part
  | _, [] => (s, [])
  | i, p :: t =>
    let (s, p) := if p.got.isSome && !p.again then (s, p) else sendLoadPart s k c stamp mk rd i p
    let (s, t) := sendLoadParts s k c stamp mk rd (i + 1) t
    (s, p :: t)

/-- The answer of a cached piece as the core takes it: the dirty bytes of the cluster cache part, of L1 and of the write buffer are kept
over the fetched ones (R142, R143). Later stores of the context have not entered (R185). -/
def partMerged (s : State) (k : Nat) (p : Part) : Part :=
  match p.got with
  | some bs =>
    if p.sent && p.attrC && bs.length == 32 then
      { p with got := some ((ccMerge s k (p.pa / 32) bs).mapIdx fun i b => ((s.core k).keptByte (p.pa / 32 * 32 + i)).getD b) }
    else p
  | none => p
/-- The bytes of a piece from the answer it got: a line answer holds the whole sector (R143). -/
def Part.bytes (p : Part) : List Byte :=
  match p.got with
  | none => []
  | some bs => if bs.length = 32 ∧ p.n ≠ 32 then (bs.drop (p.pa % 32)).take p.n else bs.take p.n
/-- The data of an operation whose pieces have all come back. -/
def Op.bytes (o : Op) : List Byte := o.parts.flatMap Part.bytes
/-- Every piece has come back. -/
def Op.allGot (o : Op) : Bool := o.stage == .wait && o.flt.isNone && o.parts.all fun p => p.got.isSome

/-- A load value as it stands in its register (R161). -/
def loadValue (n : Nat) (signed : Bool) (bs : List Byte) : Word :=
  if signed then BitVec.ofInt 64 (toSigned (8 * n) (ofBytes bs)) else BitVec.ofNat 64 (ofBytes bs)

/-- A line of L1 on its way to the home: its dirty bytes are laid over the copy that the cluster cache part holds, which goes on
from there, and with no such copy they are written to the home (R146, R191). -/
def l1Home (s : State) (k : Nat) (l : Line) : State :=
  if l.dirty.isEmpty then s
  else
    match ccLine s k l.addr with
    | none => sendWrite s k l.addr [k] (masked l.dirty) l.bad
    | some _ =>
      s.updCluster (clusterOf k) fun c =>
        { c with cc := c.cc.map fun x => if x.addr = l.addr then x.takeIn l (lcoreOf k) else x }
/-- A line of the cluster cache part is written to its home. -/
def sendLine (s : State) (k : Nat) (l : Line) : State := sendWrite s k l.addr (l.owners (clusterOf k)) (masked l.dirty) l.bad
/-- The lines of the cluster cache part that a test picks are written to their homes and are clean (R146, R179). -/
def ccHome (s : State) (k : Nat) (pick : Line → Bool) : State :=
  if isGran k then s
  else
    let s := ((s.cluster (clusterOf k)).cc.filter pick).foldl (fun s l => sendLine s k l) s
    s.updCluster (clusterOf k) fun c => { c with cc := c.cc.map fun l => if pick l then l.clean else l }
/-- The dirty bytes that a core holds for a sector in L1 and in the cluster cache part go to the home before a remote form or an
atomic (R143, R165, R168); an atomic also gives up its L1 copy. -/
def flushSector (s : State) (k sector : Nat) (drop : Bool) : State :=
  let s := match findLine (s.core k).l1 sector with
    | some l => l1Home s k l
    | none => s
  let s := s.updCore k fun x =>
    { x with l1 := if drop then x.l1.filter fun l => l.addr != sector
                   else x.l1.map fun l => if l.addr = sector then l.clean else l }
  ccHome s k fun l => l.addr == sector && l.cores.contains (lcoreOf k)

/-! ### What is still to be performed -/

/-- The stamp at which the handler was entered whose own instruction a stamp belongs to. -/
def Core.entered (x : Core) (c stamp : Nat) : Option Nat := (x.ctxs.get {} c).handler.find? fun h => h ≤ stamp
/-- An entry of a context older than a stamp has FLT set (R397). -/
def Core.flagged (x : Core) (c stamp : Nat) : Bool :=
  (x.ops.any fun e => e.2.ctx == c && decide (e.2.stamp < stamp) && e.2.flt.isSome) ||
    (x.vq ++ x.mq ++ x.cq ++ x.xq).any fun m => m.ctx == c && decide (m.stamp < stamp) && m.flt.isSome
/-- An operation of a context that an access at a stamp comes after and waits for: an older one. An access of a handler does not wait for
faulted ones, nor for those from before the handler that a faulted one holds back (DEDUCED, notes/assumptions/12.md). -/
def Core.comesAfter (x : Core) (c stamp : Nat) (o : Op) : Bool :=
  o.ctx == c && o.stamp < stamp &&
    match x.entered c stamp with
    | none => true
    | some h => !(o.flt.isSome || (decide (o.stamp < h) && x.flagged c o.stamp))
/-- An entry that an access of a context at a stamp comes after has FLT set (R397, R398). -/
def Core.faultBefore (x : Core) (c stamp : Nat) : Bool := (x.entered c stamp).isNone && x.flagged c stamp
/-- A faulted operation of a context, older than a stamp, goes to a home, or to one that its translation has not named (R398). -/
def Core.homeFaulted (x : Core) (c stamp home : Nat) : Bool :=
  (x.entered c stamp).isNone &&
    x.ops.any fun e => e.2.ctx == c && decide (e.2.stamp < stamp) && e.2.flt.isSome &&
      (e.2.parts.isEmpty || e.2.parts.any fun p => homeTile p.pa == home)
/-- Operations of a context older than a stamp that wait for a translation. -/
def Core.walking (x : Core) (c stamp : Nat) : Bool :=
  x.ops.any fun e => x.comesAfter c stamp e.2 && e.2.stage == .walk && e.2.flt.isNone
/-- Loads of a context older than a stamp that are not performed (R185). -/
def Core.loadsPending (x : Core) (c stamp : Nat) : Bool := x.ops.any fun e => x.comesAfter c stamp e.2 && isLoad e.2.instr
/-- Remote forms, atomics and future operations of a context older than a stamp (R146). -/
def Core.syncPending (x : Core) (c stamp : Nat) : Bool := x.ops.any fun e => x.comesAfter c stamp e.2 && isSyncOp e.2.instr
/-- Plain stores of a context older than a stamp that have not entered the write buffer. -/
def Core.storesPending (x : Core) (c stamp : Nat) : Bool := x.ops.any fun e => x.comesAfter c stamp e.2 && isPlainStore e.2.instr
/-- A fetch of a context older than a stamp is outstanding (R166). -/
def Core.fetchesPending (x : Core) (c stamp : Nat) : Bool := x.fetches.any fun e => e.2.ctx == c && e.2.stamp < stamp
/-- Any operation of a context older than a stamp. -/
def Core.opsPending (x : Core) (c stamp : Nat) : Bool := x.ops.any fun e => x.comesAfter c stamp e.2
/-- Memory accesses of a core that a `done` of a context comes after: every operation of the context, and the loads, plain stores, remote
forms, atomics and futures of the others, but for parked ones, faulted ones, and those that a faulted one holds back (R123; DEDUCED,
notes/assumptions/12.md). -/
def Core.accessesPending (x : Core) (c stamp : Nat) : Bool :=
  x.opsPending c stamp ||
    x.ops.any fun e => e.2.ctx != c && decide (e.2.stamp < stamp) && e.2.flt.isNone && e.2.stage != .parked &&
      !x.flagged e.2.ctx e.2.stamp && (isLoad e.2.instr || isPlainStore e.2.instr || isSyncOp e.2.instr)
/-- A context has an acquire, older than a stamp, that is not performed yet. -/
def Core.acquiring (x : Core) (c stamp : Nat) : Bool :=
  x.ops.any fun e => x.comesAfter c stamp e.2 && e.2.flt.isNone && (acquireOf e.2.instr).isSome
/-- The reads of an engine's command wait for acquires and cache maintenance that the pushing context issued before it
(R178, R183, R191; DEDUCED, notes/assumptions/44.md). -/
def Core.cmdReadWaits (x : Core) (m : Cmd) : Bool :=
  x.acquiring m.ctx m.stamp || x.ops.any fun e => x.comesAfter m.ctx m.stamp e.2 && isMaint e.2.instr
/-- The writes of an engine's command wait for these, and for the context's earlier loads (R183, R185). -/
def Core.cmdWaits (x : Core) (m : Cmd) : Bool := x.loadsPending m.ctx m.stamp || x.cmdReadWaits m
/-- Commands of a context older than a stamp that a test picks stand in the core's queues. An access of a handler passes by the queues
that the context's own faults hold (DEDUCED, notes/assumptions/12.md). -/
def Core.cmdsPending (x : Core) (c stamp : Nat) (pick : Cmd → Bool) : Bool :=
  [(0, x.vq), (1, x.mq), (2, x.cq), (3, x.xq)].any fun q =>
    !((x.entered c stamp).isSome && Tab.find x.holds q.1 == some c) &&
      q.2.any fun m => m.ctx == c && decide (m.stamp < stamp) && !m.mill.aborted && pick m
/-- The command reads memory where R185 counts the read as a load of its context: a gather, an intersection, a copy, a send or a
collective. A dense command reads slots that later stores fill, and a gather request reads in a later superstep: neither counts
(DEDUCED, notes/assumptions/44.md). -/
def readsMemory : Instr → Bool
  | .vgat .. | .sisect .. | .cpgo .. | .xsend .. | .collAg .. | .collRs .. | .collA2a .. => true
  | _ => false
/-- Reads of a context older than a stamp that are not performed: its loads, its fetches, and those of its engine commands
(R183, R185; DEDUCED, notes/assumptions/44.md). -/
def Core.readsPending (x : Core) (c stamp : Nat) : Bool :=
  x.loadsPending c stamp || (x.fetches.any fun e => x.comesAfter c stamp e.2) || x.cmdsPending c stamp fun m => readsMemory m.instr

/-- A home-performed write of the core to a sector is on its way (R191). -/
def Core.homeWriting (x : Core) (sector : Nat) : Bool :=
  x.ops.any fun e => isHomeWrite e.2.instr && e.2.flt.isNone && e.2.parts.any fun p => p.pa / 32 == sector && p.got.isNone
/-- An older operation of a context to a home is not performed yet. -/
def Core.homePending (x : Core) (c stamp home : Nat) : Bool :=
  x.ops.any fun e => x.comesAfter c stamp e.2 && e.2.parts.any fun p => p.got.isNone && homeTile p.pa == home
/-- A context's stores to a home are still in the write buffer (R186). -/
def Core.storesHeld (x : Core) (c home : Nat) : Bool := x.wb.any fun e => e.goesTo c home
/-- A piece of a plain load or a fetch waits: a cached one for a home-performed write of the core to its sector (R191), a
home-performed one for the context's earlier stores to the home (R186), for its faulted operations there (R398) and for stores of some of
its bytes (R142, R160), and one in the core's own tile also for the context's messages to that tile (DEDUCED, notes/assumptions/44.md). -/
def loadWaits (s : State) (k c stamp : Nat) (p : Part) : Bool :=
  let x := s.core k
  let held := (x.heldBytes false p.pa p.n).length
  if p.attrC then x.homeWriting (p.pa / 32)
  else if held = p.n then false
  else
    held != 0 || x.storesHeld c (homeTile p.pa) || x.homeFaulted c stamp (homeTile p.pa) ||
      (homeTile p.pa == tileOf k && x.homePending c stamp (tileOf k))
/-- A home-performed piece of a plain store waits before the write buffer: for the context's stores to its home that other banks hold,
since banks drain independently, and for its earlier operations at that home (R142, R186, R398; DEDUCED, notes/assumptions/44.md). -/
def Core.storeWaits (x : Core) (c stamp : Nat) (p : Part) : Bool :=
  !p.attrC && ((x.wb.any fun e => e.bank != wbBank p.pa && e.goesTo c (homeTile p.pa)) || x.homePending c stamp (homeTile p.pa))
/-- A plain store may enter the write buffer: its context's earlier reads have been performed (R185), no log entry before it has faulted
(R398), no piece waits for the order at its home, and there is room (R142). -/
def Core.storeReady (x : Core) (c stamp : Nat) (ps : List Part) : Bool :=
  !x.readsPending c stamp && !x.faultBefore c stamp && !ps.any (x.storeWaits c stamp) && wbRoom x.wb ps
/-- A piece of a remote form, an atomic or a future operation waits for the core's stores to its sector, and for the context's earlier
stores and faulted operations at its home (R165, R186, R398). -/
def homeWaits (x : Core) (c stamp : Nat) (p : Part) : Bool :=
  x.wb.any (fun e => e.sector == p.pa / 32) || x.storesHeld c (homeTile p.pa) || x.homeFaulted c stamp (homeTile p.pa)

/-! ### Releases and acquires (R146, R147) -/

/-- The dirty bytes of a core are carried to a level (R146, steps 3 and 4). -/
def carry (s : State) (k : Nat) (sc : Scope) : State :=
  match sc with
  | .ctx | .core => s
  | .clu =>
    let s := (s.core k).l1.foldl (fun s l => ccWrite s k l) s
    s.updCore k fun x => { x with l1 := x.l1.map Line.clean }
  | .dom | .die | .dev | .sys | .res7 =>
    let s := (s.core k).l1.foldl (fun s l => l1Home s k l) s
    let s := s.updCore k fun x => { x with l1 := x.l1.map Line.clean }
    ccHome s k fun l => l.cores.contains (lcoreOf k)

/-- One attempt at the steps of a release by a context at a scope: whether they are all done, and the state they leave. The context's
earlier plain stores have entered the write buffer, and it has drained (R146, R187). -/
def releaseTry (s : State) (k c : Nat) (sc : Scope) : Bool × State :=
  let x := s.core k
  if !x.wb.isEmpty || x.storesPending c s.now || x.syncPending c s.now then (false, s)
  else
    let s := carry s k sc
    ((s.core k).wbOut == 0, s)

/-- Lines of writable pages lose every byte that is not dirty (R147). -/
def dropClean (ls : List Line) : List Line := ls.filterMap fun l => if l.wpage then l.dirtyOnly else some l
/-- The invalidation of an acquire at a scope (R147). -/
def acquireNow (s : State) (k : Nat) (sc : Scope) : State :=
  match sc with
  | .ctx | .core => s
  | .clu => (unkeep s [k] fun p => p.attrW).updCore k fun x => { x with l1 := dropClean x.l1 }
  | .dom | .die | .dev | .sys | .res7 =>
    let s := (unkeep s (cacheCores k) fun p => p.attrW).updCore k fun x => { x with l1 := dropClean x.l1 }
    if isGran k then s else s.updCluster (clusterOf k) fun c => { c with cc := dropClean c.cc }

/-! ### Waking blocked contexts (R22, R24) -/

/-- A blocked context completes its waiting instruction: it is ready at the next bundle, after the end-of-body check. The C slot
beside an `mwait` has said which bundle is next. -/
def completeWait (s : State) (k c : Nat) : State :=
  let s := match (s.ctx k c).run with
    | .blocked (.mwait _ next taken) => s.leave k c next taken
    | _ => s.leave k c ((s.ctx k c).pc + 1) false
  s.updCtx k c fun x => { x with run := .ready, since := none }

/-- The closed batches of a core that are outstanding: a batch retires when it and every batch closed before it have no
command left (R252). -/
def Core.outstanding (x : Core) : List Nat := x.closed.dropWhile fun b => !(x.mq.any fun m => m.batch == b && !m.mill.aborted)

/-- An `mwait` or a `qfence` of the Mill completes: the ownership of commands that retired before it ends (R253). For an
`mwait`, the command's batch must be closed and retired. -/
def releaseTiles (x : Core) (since : Nat) (fence : Bool) : Core :=
  { x with owners := x.owners.filter fun o =>
      !(o.stamp < since && o.retired && (fence || (o.batch < x.openBatch && !x.outstanding.contains o.batch))) }

/-- The helpers of a mask (bit h − 1 for helper h) that are live. -/
def liveHelpers (x : Core) (mask : Nat) : Bool :=
  (List.range 10).any fun j => mask.testBit j && (x.ctxs.get {} (j + 1)).run != .free

/-- The condition of a blocked context holds (R24). -/
def waitOver (s : State) (k c : Nat) (w : Wait) : Bool :=
  let x := s.core k
  match w with
  | .sacq n => (x.sems.get {} n).count != 0
  | .acq _ => !x.loadsPending c s.stamp
  | .bwait n =>
    let b := x.bells.get {} n
    b.armed && b.count == 0
  | .frd _ => false
  | .join m => !liveHelpers x m
  | .mwait n _ _ => x.outstanding.length ≤ n
  | .sstep => false
  | .wfi => !x.irq.isEmpty
  | .tend => false

/-- A unit of a semaphore is taken: the count falls, and the mark goes back to core with the last unit (R314). -/
def takeUnit (s : State) (k n : Nat) : State :=
  s.updCore k fun x =>
    let m := x.sems.get {} n
    { x with sems := x.sems.put n { m with count := m.count - 1, dev := m.dev && m.count != 1 } }
/-- The scope of the acquire that a semaphore's mark asks for (R197, R314). -/
def semScope (s : State) (k n : Nat) : Scope := if ((s.core k).sems.get {} n).dev then .dev else .core
/-- A blocked context whose condition holds leaves the blocked state with the effect of its instruction (R24). A `sacq` takes its unit
first, and a `bwait` is released by its bell; each then waits for the earlier loads of its context (R147, R314, R335). -/
def wakeOne (s : State) (k c : Nat) (w : Wait) : State :=
  match w with
  | .sacq n =>
    let sc := semScope s k n
    let s := takeUnit s k n
    if (s.core k).loadsPending c s.stamp then s.updCtx k c fun x => { x with run := .blocked (.acq sc) }
    else completeWait (acquireNow s k sc) k c
  | .acq sc => completeWait (acquireNow s k sc) k c
  | .bwait n =>
    let sc := ((s.core k).bells.get {} n).scope
    if (s.core k).loadsPending c s.stamp then s.updCtx k c fun x => { x with run := .blocked (.acq sc) }
    else completeWait (acquireNow s k sc) k c
  | .mwait .. =>
    let since := (s.ctx k c).since.getD s.stamp
    completeWait (s.updCore k fun x => { releaseTiles x since false with closed := x.outstanding }) k c
  | .join _ | .wfi | .frd _ | .sstep | .tend => completeWait s k c

/-- The contexts in the cyclic order that begins after the one that issued last (R23). -/
def cyclic (last : Nat) : List Nat := (List.range 11).map fun i => (last + 1 + i) % 11

/-- A report may be delivered now: while a handler runs, only one whose instruction is the handler's own (R391); after `tend`, only a fault of
its steps, or of an entry that its join waits for (R120; DEDUCED, notes/assumptions/17.md). -/
def Ctx.mayDeliver (x : Ctx) (r : Report) : Bool :=
  (match x.handler.head? with
    | none => x.tendStep == 0 || r.ofTend || r.entry.isSome
    | some st => decide (st ≤ r.stamp))
/-- The oldest report in program order that a context may take (R391). -/
def Ctx.nextReport (x : Ctx) : Option Report :=
  (x.reports.filter x.mayDeliver).foldl (fun o r =>
    match o with
    | none => some r
    | some q => if r.stamp < q.stamp then some r else o) none

/-- The blocked contexts of a core whose conditions hold are woken, in the cyclic order of R23 (R24, R314). -/
def wake (s : State) (k : Nat) : State :=
  (cyclic (s.core k).last).foldl (fun s c =>
    match (s.ctx k c).run with
    | .blocked w => if (s.ctx k c).nextReport.isNone && waitOver s k c w then wakeOne s k c w else s
    | _ => s) s

/-- A semaphore is incremented by a copy, a fetch, a `tlbinv` or a collective (R313): at 65,535 it stays, OV is set and
SEM_OVER is reported; waiting contexts are woken. -/
def semIncr (s : State) (k c n : Nat) (dev : Bool) (stamp : Nat) : State :=
  let m := (s.core k).sems.get {} n
  let s := s.updCore k fun x =>
    { x with sems := x.sems.put n { m with count := capped 65535 (m.count + 1), ov := m.ov || m.count == 65535,
                                           dev := m.dev || dev } }
  let s := if m.count = 65535 then s.report k c { cause := .semOver, info := BitVec.ofNat 32 n, stamp := stamp } else s
  wake s k

end Sys2Proof.Machine
end

