-- ==== Sys2Proof/Machine/Control.lean ====
section
/-! DEFINITION. Branches, calls, loops and helpers (R104 to R124). The end-of-body check of R112 is made when the bundle
leaves (Ops); the forms that a repeat body or a Gleaner body forbids are stopped before they issue (Issue). -/

namespace Sys2Proof.Machine

/-- The bundle's own effect gives this program counter; `taken` for br, conditional branches and jr (R112). -/
def State.goTo (s : State) (target : PC) (taken : Bool) : State := s.updCur fun x => { x with next := target, taken := taken }

/-- A bundle address lies in the body of a Gleaner loop (R420). -/
def Gleaner.inBody (g : Gleaner) (pc : PC) : Bool := (pc - g.start).toNat ≤ (g.last - g.start).toNat
/-- The issuing bundle is one of a Gleaner body of its context whose checks are not suspended, as the bundle finds the Gleaner: its own
C slot neither begins nor ends that (R422, R424, R430). -/
def glActive (s : State) : Bool :=
  let g := s.cur.glAt.getD s.my.gl
  g.run && !g.suspended && g.own == s.cur.ctx && g.inBody s.cur.pc
/-- A taken branch of a body bundle leaves START to END (R422). -/
def glLeaves (s : State) (target : PC) : Bool := glActive s && !s.my.gl.inBody target

/-- A branch of displacement form, taken when the condition holds (R104, R422). -/
def State.branch (s : State) (cond : Bool) (disp : BitVec 14) : State :=
  if cond then
    let t := dispTarget s.cur.pc disp
    if glLeaves s t then s.trap .repForm else s.goTo t true
  else s

/-- Bits 63:13 of a register target are zero (R51, R104). -/
def pcInRange (x : Word) : Bool := x.toNat < 8192

/-- `nop` (R126). -/
def execNop (s : State) : Host.Outcome State Fault Refusal := .next s
/-- `br` (R104). -/
def execBr (disp : BitVec 14) (s : State) : Host.Outcome State Fault Refusal := .next (s.branch true disp)
/-- `beq` (R104). -/
def execBeq (a b : R5) (disp : BitVec 14) (s : State) : Host.Outcome State Fault Refusal :=
  .next (s.branch (s.srcG a == s.srcG b) disp)
/-- `bne` (R104). -/
def execBne (a b : R5) (disp : BitVec 14) (s : State) : Host.Outcome State Fault Refusal :=
  .next (s.branch (s.srcG a != s.srcG b) disp)
/-- `blt` (R104). -/
def execBlt (a b : R5) (disp : BitVec 14) (s : State) : Host.Outcome State Fault Refusal :=
  .next (s.branch ((s.srcG a).slt (s.srcG b)) disp)
/-- `bge` (R104). -/
def execBge (a b : R5) (disp : BitVec 14) (s : State) : Host.Outcome State Fault Refusal :=
  .next (s.branch (!(s.srcG a).slt (s.srcG b)) disp)
/-- `bltn` (R104). -/
def execBltn (a b : R5) (disp : BitVec 14) (s : State) : Host.Outcome State Fault Refusal :=
  .next (s.branch ((s.srcG a).ult (s.srcG b)) disp)
/-- `bgen` (R104). -/
def execBgen (a b : R5) (disp : BitVec 14) (s : State) : Host.Outcome State Fault Refusal :=
  .next (s.branch (!(s.srcG a).ult (s.srcG b)) disp)
/-- `jr` (R104). -/
def execJr (a : R5) (s : State) : Host.Outcome State Fault Refusal :=
  let x := s.srcG a
  .next (if pcInRange x then s.goTo (x.setWidth 13) true else s.trap .pcRange)

/-- The physical address of entry i of a context's shadow stack (R106). -/
def shadowAddr (k c i : Nat) : Nat := tcmBase k + 0x1F000 + c * 0x100 + 8 * i

/-- A call to a target: the return address is pushed on the shadow stack and written to g31 (R107). -/
def State.callTo (s : State) (target : PC) : State :=
  let l := s.me.ls
  let ret := s.cur.pc + 1
  if l.sdep = 32 then s.trap .ctrlIntegrity 2
  else
    let s := s.writeN (shadowAddr s.cur.core s.cur.ctx l.sdep) 8 ret.toNat
    let s := s.updMe fun x => { (x.writeG 31 (ret.setWidth 64)) with ls := { x.ls with sdep := x.ls.sdep + 1 } }
    s.goTo target false
/-- `call` (R107). -/
def execCall (disp : BitVec 14) (s : State) : Host.Outcome State Fault Refusal := .next (s.callTo (dispTarget s.cur.pc disp))
/-- `callr` (R107). -/
def execCallr (a : R5) (s : State) : Host.Outcome State Fault Refusal :=
  let x := s.srcG a
  .next (if pcInRange x then s.callTo (x.setWidth 13) else s.trap .pcRange)
/-- `ret` (R108). -/
def execRet (s : State) : Host.Outcome State Fault Refusal :=
  let l := s.me.ls
  let g := s.srcG 31
  .next (if l.sdep = 0 then s.trap .ctrlIntegrity 3
    else if g.toNat ≠ s.readN (shadowAddr s.cur.core s.cur.ctx (l.sdep - 1)) 8 then s.trap .ctrlIntegrity 1
    else (s.updMe fun x => { x with ls := { x.ls with sdep := x.ls.sdep - 1 } }).goTo (g.setWidth 13) false)

/-- A loop of `len` bundles begins, repeated with a window when `rep` (R111). -/
def State.beginLoop (s : State) (n : Word) (len win : Nat) (rep : Bool) : State :=
  if s.me.ls.act then s.trap .loopNest
  else if n = 0 then s.goTo (s.cur.pc + 1 + BitVec.ofNat 13 len) false
  else
    s.updMe fun x =>
      { x with lc := n, ls := { x.ls with start := s.cur.pc + 1, len := len, ldep := x.ls.sdep, act := true, rep := rep,
                                          win := if rep then win else 0, rot := 0 } }
/-- `loop` (R111). -/
def execLoop (a : R5) (len : BitVec 7) (s : State) : Host.Outcome State Fault Refusal :=
  .next (s.beginLoop (s.srcG a) len.toNat 0 false)
/-- `rep` (R111). -/
def execRep (a : R5) (win : BitVec 4) (len : BitVec 7) (s : State) : Host.Outcome State Fault Refusal :=
  .next (s.beginLoop (s.srcG a) len.toNat win.toNat true)

/-- `trap`: its bundle leaves, and then the context takes USER_TRAP at the address at which it would have gone on (R124). -/
def execTrap (code : BitVec 16) (s : State) : Host.Outcome State Fault Refusal :=
  let s := s.leave s.cur.core s.cur.ctx s.cur.next s.cur.taken
  .next ((s.takeTrap s.cur.core s.cur.ctx { cause := .userTrap, info := code.setWidth 32 }).updCur fun x =>
    { x with out := .trap })

/-- The write buffer holds bytes of the core's own instruction store (R202). -/
def storesOwnCode (s : State) : Bool :=
  s.my.wb.any fun e =>
    match homeAt (e.sector * 32) with
    | .istore k _ => k == s.cur.core
    | _ => false

/-- A helper as `start` makes it (R25, R117). -/
def helperAt (target : PC) (g1 : Word) (sup : Bool) : Ctx := { (({} : Ctx).writeG 1 g1) with pc := target, run := .ready, sup := sup }

/-- `start`: the control context's earlier accesses, fetches among them, come first (R25, R26, R117, R202; DEDUCED, notes/assumptions/27.md). -/
def execStart (h : BitVec 4) (a : R5) (tgt : BitVec 13) (s : State) : Host.Outcome State Fault Refusal :=
  let x := s.my
  let c := s.cur.ctx
  .next (if c ≠ 0 then s.trap .helperRole
    else if (x.ctxs.get {} h.toNat).run ≠ .free then s.trap .helperLive
    else if x.opsPending c s.now || x.fetchesPending c s.now || storesOwnCode s || x.vq.any fun q => q.ctx == h.toNat then s.stall
    else s.updMy fun x => { x with ctxs := x.ctxs.put h.toNat (helperAt tgt (s.srcG a) s.me.sup) })

/-- `join` (R118). -/
def execJoin (mask : BitVec 10) (s : State) : Host.Outcome State Fault Refusal :=
  .next (if s.cur.ctx ≠ 0 then s.trap .helperRole
    else if liveHelpers s.my mask.toNat then s.block (.join mask.toNat)
    else s)

/-- The Gleaner is free (R415, R419). -/
def freeGleaner (x : Core) : Core := { x with gl := {} }

/-- Every other live context of the issuing core is blocked in `sstep`: without the issuing one the core has arrived (R320). -/
def lastToArrive (s : State) : Bool :=
  (s.my.ctxs.all fun e => e.1 == s.cur.ctx || e.2.run == .free || e.2.run == .blocked .sstep) &&
    s.my.ctxs.any fun e => e.1 != s.cur.ctx && e.2.run == .blocked .sstep
/-- `hend`: once the helper's earlier instructions are complete, it is free and its loop state is discarded (R25, R119). Where the core
arrives at a superstep's barrier with it, the release that comes before the arrival is made first (R199, R320). -/
def execHend (s : State) : Host.Outcome State Fault Refusal :=
  let c := s.cur.ctx
  let (ready, s) := if c ≠ 0 ∧ lastToArrive s then releaseTry s s.cur.core c .dom else (true, s)
  .next (if c = 0 then s.trap .helperRole
    else if !ready || s.my.opsPending c s.now || s.my.fetchesPending c s.now then s.stall
    else
      let s := s.updMe fun x => { x with run := .free, lc := 0, ls := {}, reports := [] }
      let s := s.updMy fun x => if x.gl.own = c then freeGleaner x else x
      (wake s s.cur.core).updCur fun x => { x with out := .block })

/-- `yield`: R23 passes over the context until every context that was ready has issued, or every one has left the ready state (R121). Which
of the contexts that stand ready or stalled are ready in this cycle, the issuing core finds out. -/
def execYield (s : State) : Host.Outcome State Fault Refusal :=
  let others := (List.range 11).filter fun c =>
    c != s.cur.ctx && ((s.ctx s.cur.core c).run == .ready || (s.ctx s.cur.core c).run == .stalled)
  .next (s.updMe fun x => { x with yieldFor := others, yieldStay := others })

/-- `wfi` (R57, R122). -/
def execWfi (s : State) : Host.Outcome State Fault Refusal := .next (s.privileged fun s => if s.my.irq.isEmpty then s.block .wfi else s)

/-- `tend`: the control context begins to retire its task and issues nothing more; TEND_RETIRE does the steps of R27. A `tend` that `eret`
issues again goes on from the step that faulted (R120). -/
def execTend (a : R5) (s : State) : Host.Outcome State Fault Refusal :=
  .next (if s.cur.ctx ≠ 0 then s.trap .helperRole
    else (s.updMe fun x => { x with exit := s.srcG a, tendStep := max 1 x.tendStep, since := some s.now }).block .tend)

end Sys2Proof.Machine
end

