-- ==== Sys2Proof/Machine/Sysreg.lean ====
section
/-! DEFINITION. The system registers: what each reads and what a write to each does (R9, R18, R36, R37, R59, R92, R110, R125,
R150, R151, R210, R239, R249, R297 to R302, R318, R389, R416), and the events that are register writes. -/

namespace Sys2Proof.Machine

/-- Bits hi:lo of a word as a number. -/
def Bits (w : Word) (hi lo : Nat) : Nat := w.toNat / 2 ^ lo % 2 ^ (hi + 1 - lo)

/-! ### Values -/

/-- IDENT (R18). -/
def identWord (k c : Nat) : Nat :=
  match posOf (tileOf k) with
  | (d, col, row) =>
    c + lcoreOf k * 2 ^ 4 + (isGran k).toNat * 2 ^ 7 + (if isGran k then k - 3072 else clusterOf k) * 2 ^ 8 + row * 2 ^ 17 +
      col * 2 ^ 20 + d * 2 ^ 24
/-- DOMAIN (R36). -/
def domainWord (c : Cluster) (cl : Nat) : Nat :=
  let d := c.domain
  domainId d cl 0 + domainId d cl 1 * 2 ^ 12 + domainId d cl 2 * 2 ^ 24 + domainId d cl 3 * 2 ^ 36 + d.mode % 16 * 2 ^ 48 +
    d.level * 2 ^ 53 + c.domainPend.isSome.toNat * 2 ^ 56 + c.part * 2 ^ 57
/-- PHASE (R318). -/
def phaseWord (p : Phase) : Nat :=
  p.xp.toNat + p.xcol.toNat * 2 + p.terr.toNat * 4 + p.gerr.toNat * 8 + p.tbl * 2 ^ 6 + p.nent * 2 ^ 24 +
    (if p.xp then p.cur else 0) * 2 ^ 32
/-- MSTAT (R92, R260). -/
def mstatWord (c : Core) : Nat :=
  c.mstat.rm + c.mstat.fl.bits + ((List.range 16).map fun t => if c.mstat.pmask.contains t then 2 ^ (16 + t) else 0).sum +
    c.mstat.poison.toNat * 2 ^ 32 + c.mstat.abort.toNat * 2 ^ 33 + (Tab.find c.holds 1).isSome.toNat * 2 ^ 34 + c.mstat.kdone * 2 ^ 40
/-- MWEIGHT or VSHARE: eight weights, each 1 until written (R210, R239). -/
def weightsWord (w : Tab Nat) : Nat := ((List.range 8).map fun j => w.get 1 j * 2 ^ (4 * j)).sum
/-- WAYMASK (R150). -/
def waymaskWord (w : Ways) : Nat := (2 ^ 16 - 2 ^ (16 - w.s)) + w.tgt * 2 ^ 16 + w.change.isSome.toNat * 2 ^ 21
/-- WAYLIM (R151). -/
def waylimWord (w : Ways) : Nat := w.min + w.max * 2 ^ 8 + w.ivl * 2 ^ 16 + w.auto.toNat * 2 ^ 24
/-- GLSTAT (R416). -/
def glstatWord (g : Gleaner) : Nat :=
  g.idx + g.foot.toNat * 2 ^ 32 + g.decl.toNat * 2 ^ 33 + g.run.toNat * 2 ^ 34 + g.own * 2 ^ 36
/-- LS (R110). -/
def lsWord (l : Ls) : Nat :=
  l.start.toNat + l.len * 2 ^ 13 + l.act.toNat * 2 ^ 20 + l.rep.toNat * 2 ^ 21 + l.held.toNat * 2 ^ 22 + l.win * 2 ^ 28 +
    l.rot * 2 ^ 32 + l.ldep * 2 ^ 36 + l.sdep * 2 ^ 42

/-- Doubleword 0 of an operand-log entry; `queue` is 0 for memory and 1 to 4 for the engine queues (R397). -/
def logHead (word : Nat) (flt sup : Bool) (ctx queue : Nat) (slotA : Bool) (pc : PC) : Nat :=
  pc.toNat + slotA.toNat * 2 ^ 16 + queue * 2 ^ 17 + ctx * 2 ^ 20 + sup.toNat * 2 ^ 24 + flt.toNat * 2 ^ 30 + 2 ^ 31 +
    word * 2 ^ 32
/-- A doubleword of an entry: head, FADDR, register values, progress (R397). -/
def logWord (head faddr : Nat) (vals : List Word) (prog sel : Nat) : Nat :=
  if sel = 0 then head
  else if sel = 1 then faddr
  else if sel ≤ 7 then ((vals[sel - 2]?).getD 0).toNat
  else if sel = 8 then prog
  else 0
/-- The progress that doubleword 8 of a memory entry shows: the offset of a `save` or `rest`, zero otherwise (R397, R411). -/
def opProgress (o : Op) : Nat :=
  match o.instr with
  | .save .. | .saveRes .. | .rest .. => o.prog
  | _ => 0
/-- Doubleword SEL of log entry LOGIX; zero for an entry that is not taken (R389, R397). -/
def oplogWord (x : Core) (ix sel : Nat) : Nat :=
  if ix < 64 then
    match Tab.find x.ops ix with
    | some o => logWord (logHead o.word o.flt.isSome o.sup o.ctx 0 false o.pc) o.faddr.toNat o.vals (opProgress o) sel
    | none => 0
  else
    let q := (ix - 64) / 16
    let l := if q = 0 then x.vq else if q = 1 then x.mq else if q = 2 then x.cq else x.xq
    match l.find? fun m => m.idx == (ix - 64) % 16 with
    | some m => logWord (logHead m.word m.flt.isSome m.sup m.ctx (q + 1) m.slotA m.pc) m.faddr.toNat m.vals m.prog sel
    | none => 0

/-- Slot `j` of a dimensioned copy register, without DIM (R297, R299, R300). -/
def CopyRegs.shapeSlot (r : CopyRegs) (j : Nat) : Word := r.shape.get (BitVec.ofNat 64 (2 ^ 48)) j
def CopyRegs.strsSlot (r : CopyRegs) (j : Nat) : Word := r.strs.get (BitVec.ofNat 64 (0xFFFFFF * 2 ^ 32)) j
def CopyRegs.strdSlot (r : CopyRegs) (j : Nat) : Word := r.strd.get (BitVec.ofNat 64 (0xFFFFFF * 2 ^ 32)) j
/-- A slot with its DIM field. -/
def withDim (j : Nat) (w : Word) : Word := w + BitVec.ofNat 64 (j * 2 ^ 62)

/-- The value of a system register as a context reads it (R59, R125). -/
def sysRead (s : State) (k c n : Nat) : Word :=
  let x := s.ctx k c
  let y := s.core k
  let cl := s.cluster (clusterOf k)
  let w := BitVec.ofNat 64
  if n = 0x000 then w (identWord k c)
  else if n = 0x001 then s.tower
  else if n = 0x002 then w (domainWord cl (clusterOf k))
  else if n = 0x003 then w (phaseWord cl.phase)
  else if n = 0x010 then w (mstatWord y)
  else if n = 0x011 then y.fmta
  else if n = 0x012 then y.fmtb
  else if n = 0x013 then y.scla
  else if n = 0x014 then y.sclb
  else if n = 0x015 then w (weightsWord cl.mweight)
  else if n = 0x016 then w (weightsWord cl.vshare)
  else if n = 0x020 then w (waymaskWord cl.ways)
  else if n = 0x021 then w (waylimWord cl.ways)
  else if n = 0x030 then y.trapvec
  else if n = 0x031 then w x.cause.word
  else if n = 0x032 then x.trapPc.setWidth 64
  else if n = 0x033 then w (oplogWord y x.cause.logix x.cause.sel)
  else if n = 0x040 then w (glstatWord y.gl)
  else if n = 0x050 then x.cp.src
  else if n = 0x051 then x.cp.dst
  else if n = 0x052 then withDim x.cp.shapeDim (x.cp.shapeSlot x.cp.shapeDim)
  else if n = 0x053 then withDim x.cp.strsDim (x.cp.strsSlot x.cp.strsDim)
  else if n = 0x054 then withDim x.cp.strdDim (x.cp.strdSlot x.cp.strdDim)
  else if n = 0x055 then x.cp.fmt
  else if n = 0x056 then x.cp.pad
  else if n = 0x057 then x.cp.sem
  else if n = 0x060 then x.lc
  else if n = 0x061 then w (lsWord x.ls)
  else 0

/-! ### Scratch ranges of copies, and the carve-out (R150 to R153) -/

/-- A field of a word as a signed number. -/
def sBits (w : Word) (hi lo : Nat) : Int := toSigned (hi + 1 - lo) (Bits w hi lo)
/-- The lowest and highest address of one side of a copy, over its in-bounds elements (R303, R305, R306). -/
def copySpan (base : Int) (elem : Nat) (dims : List (Int × Nat × Int × Int)) : Option (Int × Int) :=
  dims.foldl (fun r (start, ext, bound, str) =>
    match r with
    | none => none
    | some (lo, hi) =>
      let a := max 0 start
      let b := min (bound - 1) (start + ext - 1)
      if b < a then none else some (lo + min (a * str) (b * str), hi + max (a * str) (b * str))) (some (base, base + elem - 1))
/-- Start, extent, bound and stride of each dimension of a side (R299, R300). -/
def CopyRegs.dims (r : CopyRegs) (dest : Bool) : List (Int × Nat × Int × Int) :=
  (List.range 4).map fun j =>
    let sh := r.shapeSlot j
    let st := if dest then r.strdSlot j else r.strsSlot j
    (if dest then sBits sh 23 0 else sBits sh 47 24, Bits sh 61 48, (Bits st 55 32 : Int), sBits st 31 0)
/-- The address of a register as the copy takes it: signed virtual on a cluster core (R306). -/
def copyBase (gran : Bool) (w : Word) : Int := if gran then w.toNat else w.toInt
/-- The spans of a copy: source, and destination; with CMP, whose destination has no strides, from CPDST on as far as LIMIT lets it go
(R303, R306, R308; DEDUCED, notes/assumptions/36.md). -/
def copySpans (gran : Bool) (r : CopyRegs) : List (Int × Int) :=
  let sty := Ty.ofCode (Bits r.fmt 3 0)
  let dty := Ty.ofCode (Bits r.fmt 7 4)
  let cmp := Bits r.fmt 14 14 = 1
  let d := copyBase gran r.dst
  (copySpan (copyBase gran r.src) (sty.w / 8) (r.dims false)).toList ++
    (if cmp then [(d, d + Bits r.fmt 39 16 * 32 - 1)] else (copySpan d (dty.w / 8) (r.dims true)).toList)
/-- A span of a copy of a core of cluster `own` meets scratch offsets lo to hi − 1 of cluster `cl`, through either window (R131, R133). -/
def spanMeets (own cl lo hi : Nat) (sp : Int × Int) : Bool :=
  let at' := fun (base : Int) => sp.1 < base + hi && base + lo ≤ sp.2
  (own == cl && at' 0x400000) || at' ((0xFFFFF00000000000 + 0x100000000 + cl * 0x400000 : Nat) - (2 ^ 64 : Nat))

/-- A copy that core k performs has its source or destination in scratch offsets lo to hi − 1 of cluster `cl`: through the local alias of
its own cluster, through the window of any cluster, or physically on a Granary (R131, R133, R153, R296). -/
def copyMeets (k cl lo hi : Nat) (r : CopyRegs) : Bool :=
  let phys : Int := (scratchBase cl : Nat)
  (copySpans (isGran k) r).any fun sp =>
    if isGran k then sp.1 < phys + hi && phys + lo ≤ sp.2 else spanMeets (clusterOf k) cl lo hi sp
/-- The scratch offsets of the ways that a change takes out of scratch (R149, R153). -/
def leavingRange (w : Ways) : Option (Nat × Nat) :=
  match w.change with
  | some t => if t < w.s then some (t * 0x40000, w.s * 0x40000) else none
  | none => none

/-- A change of the carve-out begins when TGT differs from the ways in force and none is pending; it waits for the started
copies that touch a leaving way (R153). -/
def wayBegin (s : State) (cl : Nat) : State :=
  let w := (s.cluster cl).ways
  if w.change.isSome ∨ w.tgt = w.s then s
  else
    let w := { w with change := some w.tgt }
    let waits := match leavingRange w with
      | none => []
      | some (lo, hi) =>
        s.cores.flatMap fun e =>
          (e.2.cq.filter fun m => m.started && copyMeets e.1 cl lo hi m.copy.regs).map fun m => (e.1, m.copy.tid)
    s.updCluster cl fun c => { c with ways := { w with waits := waits } }

/-- A write to WAYMASK: TGT clamped to WAYLIM (R150). -/
def writeWaymask (s : State) (cl : Nat) (v : Word) : State :=
  wayBegin (s.updCluster cl fun c => { c with ways := { c.ways with tgt := min c.ways.max (max c.ways.min (Bits v 20 16)) } }) cl
/-- A write to WAYLIM (R151). -/
def writeWaylim (s : State) (cl : Nat) (v : Word) : State :=
  let mn := min 16 (Bits v 4 0)
  let mx := max mn (min 16 (Bits v 12 8))
  wayBegin (s.updCluster cl fun c =>
    { c with ways := { c.ways with auto := Bits v 24 24 == 1, ivl := min 30 (max 16 (Bits v 20 16)), max := mx, min := mn,
                                   tgt := min mx (max mn c.ways.tgt) } }) cl

/-! ### Writes -/

/-- The writable fields of DOMAIN in a written value (R36). -/
def domainOf (v : Word) : Domain :=
  { level := min 4 (Bits v 55 53), mode := Bits v 51 48,
    id := [(0, Bits v 11 0), (1, Bits v 23 12), (2, Bits v 35 24), (3, Bits v 47 36)] }
/-- The cluster's domain at its LEVEL is bulk-synchronous (R36). -/
def Domain.bulk (d : Domain) : Bool := d.mode.testBit d.level
/-- A cluster is in the compute phase: its table is read no more, and a held write to PHASE takes effect (R316, R318, R321). -/
def toCompute (c : Cluster) : Cluster :=
  let p := { c.phase with xp := false, cur := 0 }
  { c with table := [], phase := match p.held with
      | some (n, t) => { p with nent := n, tbl := t, held := none }
      | none => p }
/-- A new value of DOMAIN takes effect. A cluster that stays in its bulk-synchronous domain keeps its phase; one that joins another takes
the phase in which that domain is; a domain that becomes bulk-synchronous is in its compute phase, as a free one always is (R316;
DEDUCED, notes/assumptions/38.md). -/
def takeDomain (s : State) (cl : Nat) (d : Domain) : State :=
  let old := (s.cluster cl).domain
  let s := s.updCluster cl fun c => { c with domain := d, domainPend := none }
  if old.bulk && d.bulk && old.level == d.level && domainId old cl d.level == domainId d cl d.level then s
  else
    let s := s.updCluster cl toCompute
    match (domainOfCluster s cl).find? fun j => j != cl && (s.cluster j).domain.level == d.level && (s.cluster j).domain.bulk with
    | some j =>
      if d.bulk then s.updCluster cl fun c => { c with phase := { c.phase with xp := (s.cluster j).phase.xp, cur := (s.cluster j).phase.cur } }
      else s
    | none => s
/-- A write to DOMAIN (R37); the stall census rearms when the value takes effect (R41). -/
def writeDomain (s : State) (cl : Nat) (v : Word) : State :=
  if (s.cluster cl).domain.bulk then s.updCluster cl fun c => { c with domainPend := some (domainOf v) }
  else (takeDomain (s.rearm cl) cl (domainOf v)).rearm cl
/-- A write to PHASE: W1C flags at once; NENT and TBL held while XP is 1 (R318). -/
def writePhase (s : State) (cl : Nat) (v : Word) : State :=
  s.updCluster cl fun c =>
    let p := { c.phase with gerr := c.phase.gerr && Bits v 3 3 == 0, terr := c.phase.terr && Bits v 2 2 == 0,
                            xcol := c.phase.xcol && Bits v 1 1 == 0 }
    { c with phase := if p.xp then { p with held := some (Bits v 31 24, Bits v 22 6) }
                      else { p with nent := Bits v 31 24, tbl := Bits v 22 6 } }
/-- A write to MSTAT: flags written as 1 are cleared, and RM is stored (R92, R93, R260). -/
def writeMstat (s : State) (k : Nat) (v : Word) : State :=
  let rm := Bits v 2 0
  s.updCore k fun c =>
    { c with mstat := { c.mstat with rm := if rm = 0 ∨ 4 < rm then 1 else rm, fl := c.mstat.fl.clear v.toNat,
                                     poison := c.mstat.poison && Bits v 32 32 == 0, abort := c.mstat.abort && Bits v 33 33 == 0 } }
/-- Eight written weights, a 0 stored as 1 (R210, R239). -/
def weightsOf (v : Word) : Tab Nat := (List.range 8).map fun j => (j, max 1 (v.toNat / 2 ^ (4 * j) % 16))
/-- The value that a write to LS stores; SDEP is read-only (R110). -/
def lsOf (old : Ls) (v : Word) : Ls :=
  let len := Bits v 19 13
  let ok := 1 ≤ len && len ≤ 64
  let win := Bits v 31 28
  { sdep := old.sdep, ldep := min 32 (Bits v 41 36), rot := if win = 0 then 0 else Bits v 35 32 % win, win := win,
    held := ok && Bits v 22 22 == 1, rep := Bits v 21 21 == 1, act := ok && Bits v 20 20 == 1, len := len, start := v.setWidth 13 }
/-- A write to LS. -/
def writeLs (s : State) (k c : Nat) (v : Word) : State := s.updCtx k c fun x => { x with ls := lsOf x.ls v }
/-- A word with only the bits of a mask. -/
def keepBits (v : Word) (mask : Nat) : Word := v &&& BitVec.ofNat 64 mask
/-- A write to a copy register, numbers 0x50 to 0x57; DIM names the slot of a dimensioned one (R297 to R302). -/
def writeCopyReg (s : State) (k c n : Nat) (v : Word) : State :=
  let j := Bits v 63 62
  s.updCtx k c fun x =>
    let r := x.cp
    { x with cp :=
        if n = 0x50 then { r with src := v }
        else if n = 0x51 then { r with dst := v }
        else if n = 0x52 then { r with shape := r.shape.put j (keepBits v (2 ^ 62 - 1)), shapeDim := j }
        else if n = 0x53 then { r with strs := r.strs.put j (keepBits v (2 ^ 56 - 1)), strsDim := j }
        else if n = 0x54 then { r with strd := r.strd.put j (keepBits v (2 ^ 56 - 1)), strdDim := j }
        else if n = 0x55 then { r with fmt := keepBits v (2 ^ 40 - 1 - 2 ^ 15) }
        else if n = 0x56 then { r with pad := v }
        else if n = 0x57 then { r with sem := keepBits v (2 ^ 64 - 2 ^ 57 + 2 ^ 48 - 32) }
        else r }
/-- A write to TRAPCAUSE: SEL, INH, SKIP and PPRIV (R389). -/
def causeOf (t : TrapCause) (v : Word) : TrapCause :=
  { t with sel := Bits v 15 12, inh := Bits v 11 11 == 1, skip := Bits v 10 10 == 1, ppriv := Bits v 9 9 == 1 }

/-- A write to a system register by a context (R59, R125). Read-only registers ignore it (R9). -/
def sysWrite (s : State) (k c n : Nat) (v : Word) : State :=
  let cl := clusterOf k
  if n = 0x002 then writeDomain s cl v
  else if n = 0x003 then writePhase s cl v
  else if n = 0x010 then writeMstat s k v
  else if n = 0x011 then s.updCore k fun x => { x with fmta := keepBits v (2 ^ 38 - 2 ^ 16 + 15) }
  else if n = 0x012 then s.updCore k fun x => { x with fmtb := keepBits v (2 ^ 38 - 2 ^ 16 + 15) }
  else if n = 0x013 then s.updCore k fun x => { x with scla := keepBits v (2 ^ 41 - 2 ^ 24 + 2 ^ 22 - 1) }
  else if n = 0x014 then s.updCore k fun x => { x with sclb := keepBits v (2 ^ 41 - 2 ^ 24 + 2 ^ 22 - 1) }
  else if n = 0x015 then s.updCluster cl fun x => { x with mweight := weightsOf v }
  else if n = 0x016 then s.updCluster cl fun x => { x with vshare := weightsOf v }
  else if n = 0x020 then writeWaymask s cl v
  else if n = 0x021 then writeWaylim s cl v
  else if n = 0x030 then s.updCore k fun x => { x with trapvec := keepBits v (2 ^ 17 + 2 ^ 16 + 2 ^ 13 - 1) }
  else if n = 0x031 then s.updCtx k c fun x => { x with cause := causeOf x.cause v }
  else if n = 0x032 then s.updCtx k c fun x => { x with trapPc := v.setWidth 13 }
  else if 0x050 ≤ n ∧ n ≤ 0x057 then writeCopyReg s k c n v
  else if n = 0x060 then s.updCtx k c fun x => { x with lc := v }
  else if n = 0x061 then writeLs s k c v
  else s

/-- A system register that `mts` may write at supervisor privilege only (R59). -/
def sysSup (n : Nat) : Bool := n = 0x20 || (0x30 ≤ n && n ≤ 0x33)

/-- `mfs` (R125). -/
def execMfs (g : R5) (sys : BitVec 12) (s : State) : Host.Outcome State Fault Refusal :=
  .next (s.setG g (sysRead s s.cur.core s.cur.ctx sys.toNat))
/-- `mts`: PRIV at user privilege for a register marked S (R57, R125). -/
def execMts (g : R5) (sys : BitVec 12) (s : State) : Host.Outcome State Fault Refusal :=
  .next (if sysSup sys.toNat ∧ !s.me.sup then s.trap .priv else sysWrite s s.cur.core s.cur.ctx sys.toNat (s.srcG g))

/-! ### Register writes as events, which a frozen core does not make (R448) -/

/-- DOMAIN_WRITE (R37). -/
def execDomainWrite (cl : Nat) (v : Word) (s : State) : Host.Outcome State Fault Refusal := .next (if s.io.frz then s else writeDomain s cl v)
/-- PHASE_WRITE (R318). -/
def execPhaseWrite (cl : Nat) (v : Word) (s : State) : Host.Outcome State Fault Refusal := .next (if s.io.frz then s else writePhase s cl v)
/-- WAYMASK_WRITE (R150). -/
def execWaymaskWrite (cl : Nat) (v : Word) (s : State) : Host.Outcome State Fault Refusal := .next (if s.io.frz then s else writeWaymask s cl v)
/-- WAYLIM_WRITE (R151). -/
def execWaylimWrite (cl : Nat) (v : Word) (s : State) : Host.Outcome State Fault Refusal := .next (if s.io.frz then s else writeWaylim s cl v)
/-- LS_WRITE (R110). -/
def execLsWrite (k c : Nat) (v : Word) (s : State) : Host.Outcome State Fault Refusal := .next (if s.io.frz then s else writeLs s k c v)
/-- MSTAT_WRITE (R93). -/
def execMstatWrite (k : Nat) (v : Word) (s : State) : Host.Outcome State Fault Refusal := .next (if s.io.frz then s else writeMstat s k v)
/-- COPY_REGISTER_WRITE (R297). -/
def execCopyRegisterWrite (k c n : Nat) (v : Word) (s : State) : Host.Outcome State Fault Refusal := .next (if s.io.frz then s else writeCopyReg s k c n v)

end Sys2Proof.Machine
end

