-- ==== Sys2Proof/Machine/LoadStore.lean ====
section
/-! DEFINITION. Loads, stores, remote forms, fetch, atomics, futures, fences and cache maintenance as they issue and as their
operations complete (R158 to R181), with the checks of a Gleaner body (R424 to R427). -/

namespace Sys2Proof.Machine

/-! ### The checks of a Gleaner body (R424, R425) -/


/-- The iteration has declared its footprint where the slot stands: an A slot comes after its own `glfoot`, and in the iteration that its
own `glnext` ends (R421, R424). -/
def glFooted (s : State) : Bool :=
  s.my.gl.foot || (s.cur.slotA && (s.cur.footed || (s.cur.glAt.map fun g => g.foot).getD false))
/-- The first rows of R424: an access before the footprint, and a form that may not stand in a body. -/
def glGate (s : State) (escapes : Bool) : Option Cause :=
  if !glActive s then none else if !glFooted s then some .glUndeclared else if escapes then some .glEscape else none
/-- The size of a cell in bytes. -/
def Gleaner.cell (g : Gleaner) : Nat := 4 * 2 ^ g.csz
/-- The cell of an address, if it lies in the region (R418). -/
def Gleaner.cellAt (g : Gleaner) (a : Nat) : Option Nat :=
  if g.base ≤ a ∧ a < g.base + g.ncell * g.cell then some ((a - g.base) / g.cell) else none
/-- An address lies in the private area, reached through the local alias (R418). -/
def Gleaner.inPrivate (g : Gleaner) (a : Nat) : Bool := g.pbase ≤ a && a < g.pbase + g.plen
/-- The addresses of an access. -/
def span (ea n : Nat) : List Nat := (List.range n).map fun i => (ea + i) % 2 ^ 64
/-- The cells that an access touches, each once, in address order. -/
def Gleaner.cells (g : Gleaner) (ea n : Nat) : List Nat := ((span ea n).filterMap g.cellAt).eraseDups
/-- The check of a load in a body (R424). -/
def glLoad (s : State) (ea n : Nat) : Option Cause :=
  match glGate s false with
  | some c => some c
  | none => if glActive s && !(s.my.gl.cells ea n).isEmpty then some .glRead else none
/-- The check of a plain store in a body: the rows of R424 in their order. -/
def glStore (s : State) (ea n : Nat) : Option Cause :=
  match glGate s false with
  | some c => some c
  | none =>
    if !glActive s then none
    else
      let g := s.my.gl
      let cs := g.cells ea n
      if (span ea n).any fun a => (g.cellAt a).isNone && !g.inPrivate a then some .glEscape
      else if cs.any fun c => g.base + c * g.cell < ea || ea + n < g.base + (c + 1) * g.cell then some .glPartial
      else if cs.any fun c => !(g.cover.any fun f => f.1 == c) then some .glUndeclared
      else none
/-- The cells of a store that the footprint's cover suppresses (R425). -/
def suppressed (cover : List (Nat × Bool)) (cs : List Nat) : List Nat := cs.filter fun c => cover.any fun f => f.1 == c && f.2
/-- The address lies in a suppressed cell. -/
def skipAddr (g : Gleaner) (sup : List Nat) (a : Nat) : Bool :=
  match g.cellAt a with
  | some c => sup.contains c
  | none => false
/-- The Gleaner sets map bits at the scratch home (R418, R427). -/
def setMap (s : State) (k : Nat) (g : Gleaner) (cs : List Nat) : State :=
  cs.foldl (fun s c =>
    let a := scratchBase (clusterOf k) + g.map + c / 8
    s.write a [memGet s.mem a ||| BitVec.ofNat 8 (2 ^ (c % 8))]) s
/-- SUPP advances (R415, R425). -/
def addSupp (s : State) (k n : Nat) : State :=
  if n = 0 then s else s.updCore k fun x => { x with gl := { x.gl with supp := capped (2 ^ 32 - 1) (x.gl.supp + n) } }

/-! ### Ranges of cache maintenance (R178, R179) -/

/-- The parts of a range in pages of 64 KiB: address and length (R402). -/
def pageParts : Nat → Nat → Nat → List (Nat × Nat)
  | 0, _, _ => []
  | fuel + 1, a, n =>
    if n = 0 then []
    else
      let m := min n (65536 - a % 65536)
      (a, m) :: pageParts fuel (a + m) (n - m)
/-- The mapped parts of a range: physical address, length, attributes and whether the page may be written; unmapped pages and
untranslated windows are left out (R179). A page with U = 0 is acted on at user privilege too (DESIGN CHOICE, notes/assumptions/49.md). -/
def mappedParts (s : State) (k a n : Nat) : List (Nat × Nat × Nat × Attr) :=
  (pageParts (n / 65536 + 2) a n).filterMap fun q =>
    if isGran k then
      match homeAt q.1 with
      | .device => some (q.1, q.1, q.2, { cached := true })
      | _ => none
    else if 0x1000000 ≤ q.1 ∧ q.1 < 2 ^ 47 then
      match engLook s k true false q.1 with
      | .ok pa at' => some (q.1, pa, q.2, at')
      | .bad .. | .miss => none
    else none
/-- A sector overlaps a physical range. -/
def sectorIn (pa n sector : Nat) : Bool := sector * 32 < pa + n && pa < sector * 32 + 32

/-! ### Operations as they issue -/

/-- A memory instruction of the context waits: an older one waits for a translation or, a store, for its place in the write buffer, is
an acquire in progress, or has faulted outside a handler (R185, R186, R398; DEDUCED, notes/assumptions/12.md). -/
def memHold (s : State) : Bool :=
  let x := s.my
  let c := s.cur.ctx
  x.walking c s.now || x.acquiring c s.now || x.storesPending c s.now || (s.me.handler.isEmpty && x.ops.any fun e => e.2.ctx == c && e.2.flt.isSome)
/-- A remote form waits for one of the core that issued before it and has not been sent (R165). -/
def remoteHold (s : State) (i : Instr) : Bool :=
  let remote := fun (i : Instr) => (remoteLoad i).isSome || (remoteStore i).isSome
  remote i && s.my.ops.any fun e => remote e.2.instr && e.2.stage == .walk && e.2.flt.isNone
/-- An access of the context to `n` bytes waits for a cache maintenance whose range holds one of its sectors, by address or by place
(R178). -/
def maintHold (s : State) (ea n : Nat) (ps : List Part) : Bool :=
  s.my.ops.any fun e =>
    let o := e.2
    let len := ((o.vals[1]?).getD 0).toNat
    o.ctx == s.cur.ctx && o.flt.isNone && isMaint o.instr &&
      ((decide (o.ea.toNat / 32 * 32 < ea + n) && decide (ea / 32 * 32 < o.ea.toNat + len)) ||
        (!ps.isEmpty && (mappedParts s s.cur.core o.ea.toNat len).any fun q => ps.any fun p => sectorIn q.2.1 q.2.2.1 (p.pa / 32)))

/-- The operation that the issuing slot begins (R397). -/
def State.newOp (s : State) (i : Instr) (vals : List Word) (ea : Word) (size : Nat) (data : List Byte) : Op :=
  { ctx := s.cur.ctx, pc := s.cur.pc, word := if s.cur.slotA then s.cur.w1 else s.cur.w0, sup := s.me.sup, stamp := s.now,
    instr := i, vals := vals, ea := ea, size := size, data := data }

/-- An operation is marked faulted, and its context told (R391, R397). -/
def opFault (s : State) (k e : Nat) (c : Cause) (va : Nat) (info : BitVec 32) : State :=
  let o := (s.core k).ops.get {} e
  let s := s.updCore k fun x =>
    { x with ops := x.ops.put e { o with flt := some c, faddr := BitVec.ofNat 64 va, info := info, stage := .wait } }
  (leaveFrd s k o.ctx e).report k o.ctx { cause := c, info := info, entry := some e, stamp := o.stamp }

/-- The operation writes memory, for the rights of its translation (R134, R402). -/
def opWrites (i : Instr) : Bool :=
  isPlainStore i || (remoteStore i).isSome || (atomicForm i).isSome ||
    match i with
    | .frd .. | .fwr .. => true
    | _ => false

/-- The access kind of a home-performed operation (R165, R168, R172). -/
def opAccess (o : Op) (p : Part) : AccessKind × Tab (Byte × Nat × Nat) :=
  match atomicForm o.instr with
  | some (op, _, _, t) =>
    (.atomic op t.w t.signed ((o.vals[1]?).getD 0).toNat ((o.vals[2]?).getD 0).toNat, [])
  | none =>
    match o.instr with
    | .frd .. => (.frd, [])
    | .fwr _ _ ov => (.fwr ((o.vals[1]?).getD 0).toNat ov, [])
    | _ =>
      if (remoteStore o.instr).isSome then
        (.write, (List.range p.n).map fun i => (p.pa % 32 + i, o.data.getD (p.off + i) 0, o.ctx, o.stamp))
      else (.read, [])

/-- The requests of a home-performed operation are sent in order, after the core's dirty bytes of their sectors
(R165, R168). -/
def sendHome (s : State) (k e : Nat) (o : Op) : State :=
  let sectors := (o.parts.map fun p => p.pa / 32).eraseDups
  let s := sectors.foldl (fun s x => flushSector s k x (atomicForm o.instr).isSome) s
  let s := (o.parts.mapIdx fun i p => (i, p)).foldl (fun s (i, p) =>
    let (kind, data) := opAccess o p
    let wr := match kind with
      | .write => true
      | _ => false
    sendAccess s { kind := kind, pa := if wr then p.pa / 32 * 32 else p.pa, n := p.n, data := data, core := k, ctx := o.ctx,
                   stamp := o.stamp, asker := .op k e i }) s
  s.updCore k fun x => { x with ops := x.ops.put e { o with parts := o.parts.map fun p => { p with sent := true } } }

/-- A `fetch`, moved into the operand log by its fault (R167). -/
def isFetch : Instr → Bool
  | .fetch .. => true
  | _ => false

/-- A write reaches the shadow-stack region of a TCM: through a core window, since the local alias is refused at issue (R106, R129). -/
def shadowPart (write : Bool) (ps : List Part) : Option Nat :=
  if write then (ps.find? fun p => inShadowPa p.pa).map fun p => p.va else none
/-- A store into a filled slot of a guarded ring of the core (R245). -/
def ringGuarded (s : State) (k : Nat) (ps : List Part) : Bool :=
  !isGran k && (s.core k).rings.any fun r =>
    r.2.guard && (List.range r.2.fill).any fun j =>
      let lo := scratchBase (clusterOf k) + r.2.base + (r.2.tail + j) % r.2.nslot * r.2.slotb
      ps.any fun p => p.pa < lo + r.2.slotb && lo < p.pa + p.n
/-- The form is one that a guarded ring refuses: a store, `fwr` or an atomic (R245). -/
def ringChecked (i : Instr) : Bool :=
  (remoteStore i).isSome || (atomicForm i).isSome ||
    match i with
    | .fwr .. => true
    | _ => false

/-- An operation that an entry holds is started, or started again: translated, and its requests sent when nothing before it holds them
back. Without a translation it waits for the walk; a failed one, or a guarded ring's filled slot, faults it (R162, R186, R191, R245,
R400). -/
def opStart (s : State) (k e : Nat) : State :=
  let o := (s.core k).ops.get {} e
  let put := fun (s : State) (o : Op) => s.updCore k fun x => { x with ops := x.ops.put e o }
  let wr := opWrites o.instr
  if o.size = 0 then put s { o with stage := .wait }
  else
    match resolve s k o.sup wr o.ea.toNat o.size with
    | .bad c va l => opFault s k e c va (accessInfo c wr l 0)
    | .miss => put s { o with stage := .walk }
    | .ok ps =>
      match shadowPart wr ps with
      | some va => opFault s k e .prot va (accessInfo .prot true 0 0)
      | none =>
        if isPlainStore o.instr then put s { o with stage := .wait, parts := ps }
        else if (loadForm o.instr).isSome || isFetch o.instr then
          if ps.any (loadWaits s k o.ctx o.stamp) then put s { o with stage := .walk }
          else
            let (s, ps) := sendLoadParts s k o.ctx o.stamp (fun i => .op k e i) (if isFetch o.instr then .fetch else .load) 0 ps
            put s { o with stage := .wait, parts := ps }
        else if ringChecked o.instr && ringGuarded s k ps then opFault s k e .ringOwned 0 0
        else if ps.any (homeWaits (s.core k) o.ctx o.stamp) then put s { o with stage := .walk }
        else sendHome (put s { o with stage := .wait, parts := ps }) k e { o with stage := .wait, parts := ps }

/-- The issuing slot takes a free entry for an operation and starts it, or stalls (R164). -/
def State.issueOp (s : State) (o : Op) : State :=
  match s.my.freeEntry with
  | none => s.stall
  | some e => opStart (s.updMy fun x => { x with ops := x.ops.put e o }) s.cur.core e

/-- The first fault of an access at issue: rights and translation of every byte (R162). -/
def issueFault (s : State) (write : Bool) (ea : Word) (n : Nat) : Option (Cause × BitVec 32) :=
  match resolve s s.cur.core s.me.sup write ea.toNat n with
  | .bad c _ l => some (c, accessInfo c write l 0)
  | .ok _ | .miss => none

/-! ### Plain loads and stores (R161 to R163) -/

/-- The destination of a plain load is written (R161). -/
def loadDest (x : Ctx) (d : R5) (n : Nat) (signed vec : Bool) (bs : List Byte) : Ctx :=
  if vec then x.writeV d.toNat (BitVec.ofNat 512 (ofBytes bs)) else x.writeG d.toNat (loadValue n signed bs)
/-- A piece whose bytes the core reads at once: all held, or in its own TCM (R139, R142). -/
def localPart (s : State) (p : Part) : Bool :=
  (s.my.heldBytes p.attrC p.pa p.n).length == p.n ||
    (match homeAt p.pa with
     | .tcm k _ => k == s.cur.core && !s.poison.contains (p.pa / 32)
     | _ => false)

/-- A plain load of `n` bytes (R162). With an acquire, `i` says so and the operation waits its turn (R147, R163). -/
def State.load (s : State) (i : Instr) (d : R5) (vals : List Word) (ea : Word) (n : Nat) (signed vec : Bool) : State :=
  match glLoad s ea.toNat n with
  | some c => s.trap c
  | none =>
    match issueFault s false ea n with
    | some (c, info) => s.trap c info
    | none =>
      if memHold s then s.stall
      else
        match resolve s s.cur.core s.me.sup false ea.toNat n with
        | .ok ps =>
          if maintHold s ea.toNat n ps || ps.any (loadWaits s s.cur.core s.cur.ctx s.now) then s.stall
          else if ps.all (localPart s) && (acquireOf i).isNone then
            let (s, ps) := sendLoadParts s s.cur.core s.cur.ctx s.now (fun _ => .none) .load 0 ps
            s.updMe fun x => loadDest x d n signed vec (ps.flatMap Part.bytes)
          else s.issueOp (s.newOp i vals ea n [])
        | .miss | .bad .. => if maintHold s ea.toNat n [] then s.stall else s.issueOp (s.newOp i vals ea n [])

/-- The bytes of a store enter the write buffer, with the suppression and the map bits of its Gleaner iteration (R142, R425, R427). -/
def storeEnter (s : State) (k c stamp : Nat) (ps : List Part) (data : List Byte) (ea : Nat) (cover : Option Gleaner) : State :=
  match cover with
  | none => wbEnter s k c stamp ps data fun _ => false
  | some g =>
    let cs := g.cells ea data.length
    let sup := suppressed g.cover cs
    setMap (wbEnter s k c stamp ps data (skipAddr g sup)) k g (cs.filter fun c => !sup.contains c)

/-- A plain store of bytes (R142, R162); a release first when the form carries one (R146, R163). In a Gleaner body its suppressed cells
count in SUPP once, and its own iteration decides what it writes, at its replay too (R425, R427). -/
def State.store (s : State) (i : Instr) (vals : List Word) (ea : Word) (data : List Byte) (rel : Option Scope) : State :=
  let k := s.cur.core
  match glStore s ea.toNat data.length with
  | some c => s.trap c
  | none =>
    let g := s.my.gl
    let cs := if glActive s then g.cells ea.toNat data.length else []
    let sup := if glActive s then suppressed g.cover cs else []
    if glActive s && !cs.isEmpty && sup.length == cs.length && (span ea.toNat data.length).all (skipAddr g sup) then
      addSupp s k sup.length
    else
      match issueFault s true ea data.length with
      | some (c, info) => s.trap c info
      | none =>
        if memHold s then s.stall
        else
          let cover := if glActive s then some g else none
          let o := { s.newOp i vals ea data.length data with cover := cover }
          match (match rel with
            | none => (true, s)
            | some sc => releaseTry s k s.cur.ctx sc) with
          | (false, s) => s.stall
          | (true, s) =>
            match resolve s k s.me.sup true ea.toNat data.length with
            | .ok ps =>
              if ringGuarded s k ps then s.trap .ringOwned
              else if maintHold s ea.toNat data.length ps then s.stall
              else if (shadowPart true ps).isSome then s.issueOp o
              else if s.my.storeReady s.cur.ctx s.now ps then
                addSupp (storeEnter s k s.cur.ctx s.now ps data ea.toNat cover) k sup.length
              else s.stall
            | .miss | .bad .. =>
              if maintHold s ea.toNat data.length [] || s.my.readsPending s.cur.ctx s.now || s.my.freeEntry.isNone then s.stall
              else (addSupp s k sup.length).issueOp o

/-- The release of an indexed store (R163; DEDUCED, notes/assumptions/11.md). -/
def relOf (o : MemOrd) (sc : Scope) : Option Scope :=
  match o with
  | .rel => some sc
  | .pl | .acq | .ar => none

/-- `ldb` (R161, R162). -/
def execLdb (d a : R5) (imm : BitVec 14) (s : State) : Host.Outcome State Fault Refusal :=
  .next (s.load (.ldb d a imm) d [s.srcG a] (s.eaCI a imm) 1 true false)
/-- `ldbx` (R161 to R163). -/
def execLdbx (d a b : R5) (o : MemOrd) (sc : Scope) (sft : BitVec 4) (s : State) : Host.Outcome State Fault Refusal :=
  .next (s.load (.ldbx d a b o sc sft) d [s.srcG a, s.srcG b] (s.eaIdx a b sft) 1 true false)
/-- `ldbn` (R161, R162). -/
def execLdbn (d a : R5) (imm : BitVec 14) (s : State) : Host.Outcome State Fault Refusal :=
  .next (s.load (.ldbn d a imm) d [s.srcG a] (s.eaCI a imm) 1 false false)
/-- `ldbnx` (R161 to R163). -/
def execLdbnx (d a b : R5) (o : MemOrd) (sc : Scope) (sft : BitVec 4) (s : State) : Host.Outcome State Fault Refusal :=
  .next (s.load (.ldbnx d a b o sc sft) d [s.srcG a, s.srcG b] (s.eaIdx a b sft) 1 false false)
/-- `ldh` (R161, R162). -/
def execLdh (d a : R5) (imm : BitVec 14) (s : State) : Host.Outcome State Fault Refusal :=
  .next (s.load (.ldh d a imm) d [s.srcG a] (s.eaCI a imm) 2 true false)
/-- `ldhx` (R161 to R163). -/
def execLdhx (d a b : R5) (o : MemOrd) (sc : Scope) (sft : BitVec 4) (s : State) : Host.Outcome State Fault Refusal :=
  .next (s.load (.ldhx d a b o sc sft) d [s.srcG a, s.srcG b] (s.eaIdx a b sft) 2 true false)
/-- `ldhn` (R161, R162). -/
def execLdhn (d a : R5) (imm : BitVec 14) (s : State) : Host.Outcome State Fault Refusal :=
  .next (s.load (.ldhn d a imm) d [s.srcG a] (s.eaCI a imm) 2 false false)
/-- `ldhnx` (R161 to R163). -/
def execLdhnx (d a b : R5) (o : MemOrd) (sc : Scope) (sft : BitVec 4) (s : State) : Host.Outcome State Fault Refusal :=
  .next (s.load (.ldhnx d a b o sc sft) d [s.srcG a, s.srcG b] (s.eaIdx a b sft) 2 false false)
/-- `ldw` (R161, R162). -/
def execLdw (d a : R5) (imm : BitVec 14) (s : State) : Host.Outcome State Fault Refusal :=
  .next (s.load (.ldw d a imm) d [s.srcG a] (s.eaCI a imm) 4 true false)
/-- `ldwx` (R161 to R163). -/
def execLdwx (d a b : R5) (o : MemOrd) (sc : Scope) (sft : BitVec 4) (s : State) : Host.Outcome State Fault Refusal :=
  .next (s.load (.ldwx d a b o sc sft) d [s.srcG a, s.srcG b] (s.eaIdx a b sft) 4 true false)
/-- `ldwn` (R161, R162). -/
def execLdwn (d a : R5) (imm : BitVec 14) (s : State) : Host.Outcome State Fault Refusal :=
  .next (s.load (.ldwn d a imm) d [s.srcG a] (s.eaCI a imm) 4 false false)
/-- `ldwnx` (R161 to R163). -/
def execLdwnx (d a b : R5) (o : MemOrd) (sc : Scope) (sft : BitVec 4) (s : State) : Host.Outcome State Fault Refusal :=
  .next (s.load (.ldwnx d a b o sc sft) d [s.srcG a, s.srcG b] (s.eaIdx a b sft) 4 false false)
/-- `ldd` (R161, R162). -/
def execLdd (d a : R5) (imm : BitVec 14) (s : State) : Host.Outcome State Fault Refusal :=
  .next (s.load (.ldd d a imm) d [s.srcG a] (s.eaCI a imm) 8 false false)
/-- `lddx` (R161 to R163). -/
def execLddx (d a b : R5) (o : MemOrd) (sc : Scope) (sft : BitVec 4) (s : State) : Host.Outcome State Fault Refusal :=
  .next (s.load (.lddx d a b o sc sft) d [s.srcG a, s.srcG b] (s.eaIdx a b sft) 8 false false)
/-- `ldq` (R161, R162). -/
def execLdq (d a : R5) (imm : BitVec 14) (s : State) : Host.Outcome State Fault Refusal :=
  .next (s.load (.ldq d a imm) d [s.srcG a] (s.eaCI a imm) 32 false true)
/-- `ldqx` (R161 to R163). -/
def execLdqx (d a b : R5) (o : MemOrd) (sc : Scope) (sft : BitVec 4) (s : State) : Host.Outcome State Fault Refusal :=
  .next (s.load (.ldqx d a b o sc sft) d [s.srcG a, s.srcG b] (s.eaIdx a b sft) 32 false true)
/-- `ldv` (R161, R162). -/
def execLdv (d a : R5) (imm : BitVec 14) (s : State) : Host.Outcome State Fault Refusal :=
  .next (s.load (.ldv d a imm) d [s.srcG a] (s.eaCI a imm) 64 false true)
/-- `ldvx` (R161 to R163). -/
def execLdvx (d a b : R5) (o : MemOrd) (sc : Scope) (sft : BitVec 4) (s : State) : Host.Outcome State Fault Refusal :=
  .next (s.load (.ldvx d a b o sc sft) d [s.srcG a, s.srcG b] (s.eaIdx a b sft) 64 false true)
/-- `stb` (R161, R162). -/
def execStb (d a : R5) (imm : BitVec 14) (s : State) : Host.Outcome State Fault Refusal :=
  .next (s.store (.stb d a imm) [s.srcG a, s.srcG d] (s.eaCI a imm) (toBytes 1 (s.srcG d).toNat) none)
/-- `stbx` (R161 to R163). -/
def execStbx (d a b : R5) (o : MemOrd) (sc : Scope) (sft : BitVec 4) (s : State) : Host.Outcome State Fault Refusal :=
  .next (s.store (.stbx d a b o sc sft) [s.srcG a, s.srcG b, s.srcG d] (s.eaIdx a b sft) (toBytes 1 (s.srcG d).toNat) (relOf o sc))
/-- `sth` (R161, R162). -/
def execSth (d a : R5) (imm : BitVec 14) (s : State) : Host.Outcome State Fault Refusal :=
  .next (s.store (.sth d a imm) [s.srcG a, s.srcG d] (s.eaCI a imm) (toBytes 2 (s.srcG d).toNat) none)
/-- `sthx` (R161 to R163). -/
def execSthx (d a b : R5) (o : MemOrd) (sc : Scope) (sft : BitVec 4) (s : State) : Host.Outcome State Fault Refusal :=
  .next (s.store (.sthx d a b o sc sft) [s.srcG a, s.srcG b, s.srcG d] (s.eaIdx a b sft) (toBytes 2 (s.srcG d).toNat) (relOf o sc))
/-- `stw` (R161, R162). -/
def execStw (d a : R5) (imm : BitVec 14) (s : State) : Host.Outcome State Fault Refusal :=
  .next (s.store (.stw d a imm) [s.srcG a, s.srcG d] (s.eaCI a imm) (toBytes 4 (s.srcG d).toNat) none)
/-- `stwx` (R161 to R163). -/
def execStwx (d a b : R5) (o : MemOrd) (sc : Scope) (sft : BitVec 4) (s : State) : Host.Outcome State Fault Refusal :=
  .next (s.store (.stwx d a b o sc sft) [s.srcG a, s.srcG b, s.srcG d] (s.eaIdx a b sft) (toBytes 4 (s.srcG d).toNat) (relOf o sc))
/-- `std` (R161, R162). -/
def execStd (d a : R5) (imm : BitVec 14) (s : State) : Host.Outcome State Fault Refusal :=
  .next (s.store (.std d a imm) [s.srcG a, s.srcG d] (s.eaCI a imm) (toBytes 8 (s.srcG d).toNat) none)
/-- `stdx` (R161 to R163). -/
def execStdx (d a b : R5) (o : MemOrd) (sc : Scope) (sft : BitVec 4) (s : State) : Host.Outcome State Fault Refusal :=
  .next (s.store (.stdx d a b o sc sft) [s.srcG a, s.srcG b, s.srcG d] (s.eaIdx a b sft) (toBytes 8 (s.srcG d).toNat) (relOf o sc))
/-- `stq` (R161, R162). -/
def execStq (d a : R5) (imm : BitVec 14) (s : State) : Host.Outcome State Fault Refusal :=
  .next (s.store (.stq d a imm) [s.srcG a] (s.eaCI a imm) (vBytes (s.me.readV d.toNat) 32) none)
/-- `stqx` (R161 to R163). -/
def execStqx (d a b : R5) (o : MemOrd) (sc : Scope) (sft : BitVec 4) (s : State) : Host.Outcome State Fault Refusal :=
  .next (s.store (.stqx d a b o sc sft) [s.srcG a, s.srcG b] (s.eaIdx a b sft) (vBytes (s.me.readV d.toNat) 32) (relOf o sc))
/-- `stv` (R161, R162). -/
def execStv (d a : R5) (imm : BitVec 14) (s : State) : Host.Outcome State Fault Refusal :=
  .next (s.store (.stv d a imm) [s.srcG a] (s.eaCI a imm) (vBytes (s.me.readV d.toNat) 64) none)
/-- `stvx` (R161 to R163). -/
def execStvx (d a b : R5) (o : MemOrd) (sc : Scope) (sft : BitVec 4) (s : State) : Host.Outcome State Fault Refusal :=
  .next (s.store (.stvx d a b o sc sft) [s.srcG a, s.srcG b] (s.eaIdx a b sft) (vBytes (s.me.readV d.toNat) 64) (relOf o sc))

/-! ### Remote forms, atomics, futures (R165, R168, R172) -/

/-- A home-performed operation issues (R165, R168, R172): its own checks first, then rights, then what it waits for, then any
release it makes first. -/
def State.homeOp (s : State) (o : Op) (aligned : Bool) (gate : Option Cause) (rel : Option Scope) : State :=
  let k := s.cur.core
  let wr := opWrites o.instr
  let n := o.size
  match gate with
  | some c => s.trap c
  | none =>
    if !aligned then s.trap .align
    else
      match issueFault s wr o.ea n with
      | some (c, info) => s.trap c info
      | none =>
        let held := fun (ps : List Part) =>
          memHold s || remoteHold s o.instr || maintHold s o.ea.toNat n ps || (wr && s.my.readsPending s.cur.ctx s.now)
        let go := fun (_ : Unit) =>
          match (match rel with
            | none => (true, s)
            | some sc => releaseTry s k s.cur.ctx sc) with
          | (false, s) => s.stall
          | (true, s) => s.issueOp o
        match resolve s k s.me.sup wr o.ea.toNat n with
        | .ok ps =>
          if ringChecked o.instr && ringGuarded s k ps then s.trap .ringOwned
          else if held ps || ps.any (homeWaits s.my s.cur.ctx s.now) then s.stall
          else go ()
        | .miss | .bad .. => if held [] then s.stall else go ()

/-- A remote load of `n` bytes (R165). -/
def State.remoteLd (s : State) (i : Instr) (a : R5) (ea : Word) (n : Nat) : State :=
  s.homeOp (s.newOp i [s.srcG a] ea n []) true (glLoad s ea.toNat n) none
/-- `rldw` (R165). -/
def execRldw (d a : R5) (imm : BitVec 14) (s : State) : Host.Outcome State Fault Refusal :=
  .next (s.remoteLd (.rldw d a imm) a (s.eaCI a imm) 4)
/-- `rldd` (R165). -/
def execRldd (d a : R5) (imm : BitVec 14) (s : State) : Host.Outcome State Fault Refusal :=
  .next (s.remoteLd (.rldd d a imm) a (s.eaCI a imm) 8)
/-- A remote store of `n` bytes (R165). -/
def State.remoteSt (s : State) (i : Instr) (d a : R5) (ea : Word) (n : Nat) : State :=
  s.homeOp (s.newOp i [s.srcG a, s.srcG d] ea n (toBytes n (s.srcG d).toNat)) true (glGate s true) none
/-- `rstw` (R165). -/
def execRstw (d a : R5) (imm : BitVec 14) (s : State) : Host.Outcome State Fault Refusal :=
  .next (s.remoteSt (.rstw d a imm) d a (s.eaCI a imm) 4)
/-- `rstd` (R165). -/
def execRstd (d a : R5) (imm : BitVec 14) (s : State) : Host.Outcome State Fault Refusal :=
  .next (s.remoteSt (.rstd d a imm) d a (s.eaCI a imm) 8)

/-- An atomic (R168): a release first for `rel` and `ar`. Only `acas` reads gD, and logs it (R397). -/
def State.atomic (s : State) (i : Instr) (d a b : R5) (o : MemOrd) (sc : Scope) (t : Ty) : State :=
  let ea := s.srcG a
  let vals := match i with
    | .acas .. => [ea, s.srcG b, s.srcG d]
    | _ => [ea, s.srcG b]
  s.homeOp (s.newOp i vals ea (t.w / 8) []) (ea.toNat % (t.w / 8) == 0) (glGate s true)
    (match o with
     | .rel | .ar => some sc
     | .pl | .acq => none)
/-- `aadd` (R168). -/
def execAadd (d a b : R5) (o : MemOrd) (sc : Scope) (t : Ty) (s : State) : Host.Outcome State Fault Refusal :=
  .next (s.atomic (.aadd d a b o sc t) d a b o sc t)
/-- `aand` (R168). -/
def execAand (d a b : R5) (o : MemOrd) (sc : Scope) (t : Ty) (s : State) : Host.Outcome State Fault Refusal :=
  .next (s.atomic (.aand d a b o sc t) d a b o sc t)
/-- `aor` (R168). -/
def execAor (d a b : R5) (o : MemOrd) (sc : Scope) (t : Ty) (s : State) : Host.Outcome State Fault Refusal :=
  .next (s.atomic (.aor d a b o sc t) d a b o sc t)
/-- `axor` (R168). -/
def execAxor (d a b : R5) (o : MemOrd) (sc : Scope) (t : Ty) (s : State) : Host.Outcome State Fault Refusal :=
  .next (s.atomic (.axor d a b o sc t) d a b o sc t)
/-- `amin` (R168). -/
def execAmin (d a b : R5) (o : MemOrd) (sc : Scope) (t : Ty) (s : State) : Host.Outcome State Fault Refusal :=
  .next (s.atomic (.amin d a b o sc t) d a b o sc t)
/-- `amax` (R168). -/
def execAmax (d a b : R5) (o : MemOrd) (sc : Scope) (t : Ty) (s : State) : Host.Outcome State Fault Refusal :=
  .next (s.atomic (.amax d a b o sc t) d a b o sc t)
/-- `aswp` (R168). -/
def execAswp (d a b : R5) (o : MemOrd) (sc : Scope) (t : Ty) (s : State) : Host.Outcome State Fault Refusal :=
  .next (s.atomic (.aswp d a b o sc t) d a b o sc t)
/-- `acas` (R168). -/
def execAcas (d a b : R5) (o : MemOrd) (sc : Scope) (t : Ty) (s : State) : Host.Outcome State Fault Refusal :=
  .next (s.atomic (.acas d a b o sc t) d a b o sc t)

/-- `frd`: the context blocks until the take is complete (R172, R173). -/
def execFrd (d a : R5) (s : State) : Host.Outcome State Fault Refusal :=
  let ea := s.srcG a
  let t := s.homeOp (s.newOp (.frd d a) [ea] ea 16 []) (ea.toNat % 16 == 0) (glGate s true) none
  .next (match t.cur.out, s.my.freeEntry with
    | .go, some e =>
      if (t.my.ops.get {} e).flt.isSome then t else t.updMe fun x => { x with run := .blocked (.frd e) }
    | _, _ => t)
/-- `fwr`: a release at device scope, then the fill (R172, R173). -/
def execFwr (d a : R5) (ov : Bool) (s : State) : Host.Outcome State Fault Refusal :=
  let ea := s.srcG a
  .next (s.homeOp (s.newOp (.fwr d a ov) [ea, s.srcG d] ea 16 []) (ea.toNat % 16 == 0) (glGate s true) (some .dev))

/-! ### Fetch (R166, R167) -/

/-- `fetch` (R166). A source that is not 32-byte aligned raises ALIGN, as the pseudocode of R166 says; R158, which lets a fetch's source be
misaligned, is not followed there (DESIGN CHOICE, notes/assumptions/51.md). -/
def execFetch (d a : R5) (n : BitVec 7) (s : State) : Host.Outcome State Fault Refusal :=
  let ga := s.srcG a
  let gd := s.srcG d
  let k := s.cur.core
  .next (match glGate s true with
    | some c => s.trap c
    | none =>
      if ga.toNat % 32 ≠ 0 ∨ gd.toNat % 32 ≠ 0 then s.trap .align
      else if 0x1FFE0 < gd.toNat then s.trap .page (accessInfo .page true 0 0)
      else if 0x1F000 ≤ gd.toNat ∧ gd.toNat ≤ 0x1FAFF then s.trap .prot (accessInfo .prot true 0 0)
      else
        match issueFault s false ga 32 with
        | some (c, info) => s.trap c info
        | none =>
          if memHold s then s.stall
          else
            match freeKey s.my.fetches 4096 0 with
            | none => s.stall
            | some i =>
              let o := { s.newOp (.fetch d a n) [ga, gd] ga 32 [] with prog := gd.toNat }
              match resolve s k s.me.sup false ga.toNat 32 with
              | .ok ps =>
                if maintHold s ga.toNat 32 ps || ps.any (loadWaits s k o.ctx o.stamp) then s.stall
                else
                  let (s, ps) := sendLoadParts s k o.ctx o.stamp (fun j => .fetch k i j) .fetch 0 ps
                  s.updMy fun x => { x with fetches := x.fetches.put i { o with stage := .wait, parts := ps } }
              | .miss | .bad .. =>
                if maintHold s ga.toNat 32 [] then s.stall else s.updMy fun x => { x with fetches := x.fetches.put i o })

/-- FETCH_COMPLETE: the data of a fetch is written into TCM and its semaphore incremented; a faulted fetch moves into a free
entry of the operand log and is reported (R166, R167). The write and the increment, a release, come after the earlier loads of its context
(R185, R189, R191; DEDUCED, notes/assumptions/44.md). -/
def execFetchComplete (k i : Nat) (s : State) : Host.Outcome State Fault Refusal :=
  .next (if s.coreStill k then s else match Tab.find (s.core k).fetches i with
    | none => s
    | some o =>
      match o.flt with
      | some cz =>
        match (s.core k).freeEntry with
        | none => s
        | some e =>
          let s := s.updCore k fun x => { x with fetches := x.fetches.del i, ops := x.ops.put e o }
          s.report k o.ctx { cause := cz, info := o.info, entry := some e, stamp := o.stamp }
      | none =>
        if o.allGot && o.parts.any (fun p => p.again) then
          let (s, ps) := sendLoadParts s k o.ctx o.stamp (fun j => .fetch k i j) .fetch 0 o.parts
          s.updCore k fun x => { x with fetches := x.fetches.put i { o with parts := ps } }
        else if o.allGot && !(s.core k).loadsPending o.ctx o.stamp then
          let s := s.write (tcmBase k + o.prog) { o with parts := o.parts.map (partMerged s k) }.bytes
          let s := s.updCore k fun x => { x with fetches := x.fetches.del i }
          match o.instr with
          | .fetch _ _ n => semIncr s k o.ctx n.toNat false o.stamp
          | _ => s
        else s)

/-! ### Fences (R176, R177) -/

/-- `fence` (R176): `acq` waits for the earlier loads, `rel` makes the release, `sc` both with a wait for every earlier access
between: operations, fetches, and the commands that the context has pushed (R183; DEDUCED, notes/assumptions/44.md). -/
def execFence (o : MemOrd) (sc : Scope) (s : State) : Host.Outcome State Fault Refusal :=
  let k := s.cur.core
  let c := s.cur.ctx
  .next (match o with
    | .acq | .pl => if s.my.loadsPending c s.now || memHold s then s.stall else acquireNow s k sc
    | .rel => match releaseTry s k c sc with
      | (true, s) => s
      | (false, s) => s.stall
    | .ar => match releaseTry s k c sc with
      | (true, s) =>
        if s.my.opsPending c s.now || (s.my.fetches.any fun e => s.my.comesAfter c s.now e.2) || s.my.cmdsPending c s.now fun _ => true then
          s.stall
        else acquireNow s k sc
      | (false, s) => s.stall)

/-- The commands of a queue older than a stamp. -/
def olderIn (q : List Cmd) (stamp : Nat) : Bool := q.any fun m => m.stamp < stamp
/-- A named queue still holds what a `qfence` first tried at a stamp waits for (R177). -/
def qfenceWaits (x : Core) (mask : R5) (stamp : Nat) : Bool :=
  (mask.getLsbD 0 && olderIn x.vq stamp) || (mask.getLsbD 1 && olderIn (x.mq.filter fun m => !m.mill.aborted) stamp) ||
    (mask.getLsbD 2 && olderIn x.cq stamp) || (mask.getLsbD 3 && olderIn x.xq stamp) ||
    (mask.getLsbD 4 && (!x.wb.isEmpty || x.ops.any (fun e => e.2.stamp < stamp) || x.fetches.any (fun e => e.2.stamp < stamp)))

/-- `qfence` (R177); one that names the Mill ends the ownership of commands that have retired (R253). -/
def execQfence (mask : R5) (s : State) : Host.Outcome State Fault Refusal :=
  let since := s.me.since.getD s.now
  .next (if qfenceWaits s.my mask since then (s.updMe fun x => { x with since := some since }).stall
    else
      let s := s.updMe fun x => { x with since := none }
      if mask.getLsbD 1 then s.updMy fun x => releaseTiles x since true else s)

/-! ### Cache maintenance (R178 to R180) -/

/-- A range of `n` bytes lies in the local memory of a core: its ends do, in one window (R317). -/
def rangeLocal (k a n : Nat) : Bool :=
  match fixedWindow k a, fixedWindow k (a + n - 1) with
  | some p, some q => localTo k p && localTo k q && q == p + n - 1
  | _, _ => false
/-- A cache-maintenance instruction takes an entry and is performed when the operation completes (R178). In a compute phase a range that
leaves local memory raises PHASE, but for `pref`, which never faults and passes such lines by (R179, R317). -/
def State.maint (s : State) (i : Instr) (a b : R5) (escapes : Bool) : State :=
  let k := s.cur.core
  let ga := s.srcG a
  let n := (s.srcG b).toNat
  match glGate s escapes with
  | some c => s.trap c
  | none =>
    if !isPref i && n != 0 && !isGran k && (s.cluster (clusterOf k)).computePhase && !rangeLocal k ga.toNat n then s.trap .phase
    else if memHold s || maintHold s ga.toNat n [] then s.stall
    else s.issueOp (s.newOp i [ga, s.srcG b] ga 0 [])
/-- `cwb` (R179). -/
def execCwb (a b : R5) (sc : Scope) (s : State) : Host.Outcome State Fault Refusal := .next (s.maint (.cwb a b sc) a b false)
/-- `cinv` (R179). -/
def execCinv (a b : R5) (sc : Scope) (s : State) : Host.Outcome State Fault Refusal := .next (s.maint (.cinv a b sc) a b true)
/-- `cwbi` (R179). -/
def execCwbi (a b : R5) (sc : Scope) (s : State) : Host.Outcome State Fault Refusal := .next (s.maint (.cwbi a b sc) a b true)
/-- `pref` (R179). -/
def execPref (a b : R5) (sc : Scope) (s : State) : Host.Outcome State Fault Refusal := .next (s.maint (.pref a b sc) a b false)
/-- `cpin` (R180). -/
def execCpin (d a b : R5) (s : State) : Host.Outcome State Fault Refusal := .next (s.maint (.cpin d a b) a b true)
/-- `cunpin` (R180). -/
def execCunpin (d a b : R5) (s : State) : Host.Outcome State Fault Refusal := .next (s.maint (.cunpin d a b) a b true)

end Sys2Proof.Machine
end

