-- ==== Sys2Proof/Machine/Regs.lean ====
section
/-! DEFINITION. The register blocks of the tiles: what each register reads and what a write to it does (R157, R358 to R361,
R382 to R386, R401, R406, R433 to R449), and the register writes that are events. -/

namespace Sys2Proof.Machine

/-! ### What a failure cuts off (R379) -/

/-- A failure of links or of a router ends the attempts of the tasks that it leaves with a core cut off (R379;
DEDUCED, notes/assumptions/46.md). -/
def loseTasks (s : State) : State :=
  (s.reeve.recs.filter fun r => r.state == .running && (s.holders r.ticket).any fun k => cutOff s (tileOf k)).foldl
    (fun s r => s.hardError r.ticket .tileDown) s
/-- The ports of a router that a predicate names, as a mask. -/
def portMask (f : Nat → Bool) : Nat := ((List.range 6).map fun p => (f p).toNat * 2 ^ p).sum

/-! ### Answers of homes and outside units -/

/-- The answer to an access leaves the interface that performed it, in the reply class (R343). -/
def answerAccess (s : State) (i : Nat) (a : Access) (bytes : List Byte) (err : Option (Cause × BitVec 32)) : State :=
  match a.asker with
  | .none => s
  | _ => s.submit i (tileOf a.core) .reply (.answer a.asker a.core a.ctx a.stamp bytes err a.pa)

/-- The contexts that stored masked bytes, those whose stores were written over included, each once, with the stamp of the first of its
stores met; the bytes of caches name none (R149). -/
def storersOf (bytes : Tab (Byte × Nat × Nat)) (hid : List (Nat × Nat × Nat)) : List (Nat × Nat) :=
  ((bytes.map fun b => b.2.2) ++ hid.map fun h => h.2).foldl
    (fun l q => if 11 ≤ q.1 ∨ l.any (fun e => e.1 == q.1) then l else l ++ [q]) []
/-- A write-back of a core whose task retires has failed: its control context takes the fault (R27, R120). -/
def retiring (s : State) (k : Nat) : Bool := (s.ctx k 0).run == .blocked .tend || (s.ctx k 0).run == .halted (.blocked .tend)
/-- Bytes are dirty in L1 again. -/
def holdDirty (ls : List Line) (addr : Nat) (bs : Tab Byte) : List Line :=
  useLine ls (((findLine ls addr).getD { addr := addr, wpage := true, bytes := [] }).overlay bs)
/-- A home, or a unit on the way to it, reports a fault of a write without a log entry: to the contexts that stored the refused bytes,
and for bytes of caches to the control contexts, in `tend`, of the cores whose bytes they are, where the step is made again
(R120, R149, R166). -/
def reportStorers (s : State) (i : Nat) (a : Access) (c : Cause) (info : BitVec 32) : State :=
  let s := (storersOf a.data a.hid).foldl (fun s (ctx, stamp) =>
    s.submit i (tileOf a.core) .reply (.report a.core ctx { cause := c, info := info, stamp := stamp })) s
  match a.asker with
  | .wback ks =>
    match ks.filter (retiring s) with
    | [] => s
    | k :: t =>
      if a.data.any fun b => 11 ≤ b.2.2.1 then
        let s := s.updCore k fun x => { x with l1 := holdDirty x.l1 (a.pa / 32) (a.data.map fun b => (b.1, b.2.1)) }
        (k :: t).foldl (fun s k =>
          s.submit i (tileOf k) .reply (.report k 0 { cause := c, info := info, stamp := s.stamp, ofTend := true })) s
      else s
  | .op .. | .fetch .. | .none => s

/-- A home, or a unit on the way to it, refuses an access: the context that asked is told (R149, R356, R436, R441). -/
def failAccess (s : State) (i : Nat) (a : Access) (c : Cause) (info : BitVec 32) : State :=
  match a.asker with
  | .wback _ => answerAccess (reportStorers s i a c info) i a [] none
  | .op .. | .fetch .. | .none => answerAccess s i a [] (some (c, info))

/-- Every request outstanding at a peer reports TILE_DOWN (R441). What would go to frozen dies is held, and discarded at reset
(R448). -/
def failPeer (s : State) (n : Nat) : State :=
  let mine := if s.io.frz then [] else s.io.peerMsgs.filter fun o => peerOf o.access.pa == n
  let s := { s with io := { s.io with peerMsgs := s.io.peerMsgs.filter fun o => peerOf o.access.pa != n
                                      peerAns := s.io.peerAns.filter fun o => o.peer != n } }
  mine.foldl (fun s o => failAccess s o.back o.access .tileDown 0) s

/-! ### Words of the registers -/

/-- TQCTL and LQCTL (R384). -/
def areaWord (a : Area) (head : Bool) : Nat := a.size + (if head then a.head * 2 ^ 16 else 0) + a.tail * 2 ^ 32 + a.drop * 2 ^ 48
/-- STRESS of a sensor (R447; DEDUCED, notes/assumptions/22.md). -/
def stressOf (temp droop : Nat) : Nat := max (min 15 ((temp - 60) / 4)) (min 15 (droop / 64))
/-- SENSE (R447). -/
def senseWord (x : Sense) : Nat := x.temp + x.droop * 2 ^ 16 + x.stress * 2 ^ 28
/-- The records of a die's pool that take a slot, and its spilled ones (R364, R365, R386). -/
def pooled (s : State) (d : Nat) : Nat := (s.reeve.recs.filter fun r => r.die == d && r.state == .queued).length
def spilled (s : State) (d : Nat) : Nat := (s.reeve.recs.filter fun r => r.die == d && r.state == .spilled).length
/-- The IPv6 address words and control word of an Ethernet port (R440). -/
def portWord (p : Port) : Nat := p.udp + p.up.toNat * 2 ^ 62 + p.link.toNat * 2 ^ 63
/-- PCTL (R440). -/
def peerWord (p : Peer) : Nat := p.port + p.down.toNat * 2 ^ 62 + p.en.toNat * 2 ^ 63
/-- EVCTL (R437). -/
def evWord (e : EvCtl) : Nat := e.lcore + e.cluster * 2 ^ 3 + e.core.toNat * 2 ^ 12 + e.host.toNat * 2 ^ 13 + e.pend.toNat * 2 ^ 63
/-- QCTL (R385). -/
def queueWord (q : HostQueue) : Nat := q.size + q.head * 2 ^ 32 + q.die * 2 ^ 48 + q.part * 2 ^ 56 + q.en.toNat * 2 ^ 63

/-- A register of a router (R358 to R361). -/
def routerRead (s : State) (r off : Nat) : Nat :=
  let x := s.router r
  if off = 0 then x.tmo + x.down * 2 ^ 16
  else if off = 8 then x.drop + x.byej * 2 ^ 16 + x.capt * 2 ^ 32 + x.susp * 2 ^ 48
  else if off = 16 then
    portMask (linkLive s r) + portMask (fun p => (neighbour r p).isSome) * 2 ^ 8 + x.retry * 2 ^ 16
  else 0
/-- A register of the Reeve (R382). -/
def reeveRead (s : State) (off : Nat) : Nat :=
  let v := s.reeve
  if off = 0x4000 then v.late.base.toNat
  else if off = 0x4008 then areaWord v.late true
  else if off = 0x4010 then v.census.base.toNat
  else if off = 0x4018 then areaWord v.census false
  else if 0x4100 ≤ off ∧ off < 0x4300 then
    let q := v.queues.get {} ((off - 0x4100) / 0x20)
    if off % 0x20 = 0 then q.base.toNat else if off % 0x20 = 8 then queueWord q else if off % 0x20 = 16 then q.tail else 0
  else if 0x5000 ≤ off ∧ off < 0x5400 then
    let n := (off - 0x5000) / 0x100
    let d := v.dies.get {} n
    let o := off % 0x100
    if o = 0 then d.lw
    else if o = 8 then spilled s n + (8192 - pooled s n) * 2 ^ 32 + d.rej * 2 ^ 48
    else if o = 0x10 then d.spbase.toNat
    else if o = 0x18 then d.spsize
    else if o = 0x20 then d.snbase.toNat
    else 0
  else 0
/-- A register of the I/O die (R433). -/
def ioRead (s : State) (off : Nat) : Nat :=
  let x := s.io
  if off = 0 then x.version + x.stage * 2 ^ 32 + x.set * 2 ^ 61 + x.err.toNat * 2 ^ 62 + x.ready.toNat * 2 ^ 63
  else if 0x10 ≤ off ∧ off < 0x30 then ofBytes ((List.range 8).map fun i => Config.idPubByte (off - 0x10 + i))
  else if 0x40 ≤ off ∧ off < 0x60 then (x.attNonce.get 0 ((off - 0x40) / 8)).toNat
  else if off = 0x60 then x.attAddr.toNat
  else if off = 0x68 then x.attGo.toNat * 2 ^ 63 + x.attDone.toNat * 2 ^ 62 + x.attErr.toNat * 2 ^ 61
  else if off = 0x1000 then x.lost + x.width * 2 ^ 40 + x.gen * 2 ^ 48 + x.link.toNat * 2 ^ 63
  else if off = 0x1008 then x.doorbell.toNat
  else if 0x2000 ≤ off ∧ off < 0x2040 then
    let p := x.ports.get {} ((off - 0x2000) / 0x20)
    if off % 0x20 = 0 then p.addrh.toNat else if off % 0x20 = 8 then p.addrl.toNat else if off % 0x20 = 16 then portWord p else 0
  else if 0x2100 ≤ off ∧ off < 0x2300 then
    let p := x.peers.get {} ((off - 0x2100) / 0x20)
    if off % 0x20 = 0 then p.addrh.toNat else if off % 0x20 = 8 then p.addrl.toNat else if off % 0x20 = 16 then peerWord p else 0
  else if 0x3000 ≤ off ∧ off < 0x3400 then
    let q := x.trapq.get {} ((off - 0x3000) / 0x10)
    if off % 0x10 = 0 then q.base.toNat else areaWord q true
  else if 0x3400 ≤ off ∧ off < 0x3600 then
    let c := x.cfstat.get {} ((off - 0x3400) / 8)
    c.time + c.op * 2 ^ 62 + c.done.toNat * 2 ^ 63
  else if 0x3800 ≤ off ∧ off < 0x3840 then evWord (x.ev.get {} ((off - 0x3800) / 8))
  else if 0x4000 ≤ off ∧ off < 0x5400 then reeveRead s off
  else if off = 0x6000 then x.plimLimit + x.plimWin * 2 ^ 16
  else if off = 0x6008 then x.power + x.throt.toNat * 2 ^ 63
  else if off = 0x7000 then x.frz.toNat + x.tapen.toNat * 2
  else if 0xE000 ≤ off ∧ off < 0xE800 then routerRead s (512 + (off - 0xE000) / 0x100) (off % 0x100)
  else 0
/-- The 8-byte register at an offset of a tile's block; an offset not listed reads zero (R157, R401, R406, R433). -/
def regRead (s : State) (t off : Nat) : Nat :=
  if t = 512 then ioRead s off
  else if 0xE000 ≤ off ∧ off < 0xE100 then routerRead s t (off - 0xE000)
  else if t < 384 then
    let c := s.cluster t
    if off = 0xF000 then c.ptroot.toNat
    else if 0xD000 ≤ off ∧ off < 0xD040 then senseWord (c.sense.get {} ((off - 0xD000) / 8))
    else if 0x8000 ≤ off ∧ off < 0x8400 then
      ofBytes (((c.haltRec.get [] ((off - 0x8000) / 0x80)).drop (off % 0x80)).take 8)
    else 0
  else if off = 0x1000 then
    let g := s.granary (t - 384)
    g.retired * 2 ^ 8 + g.bypass * 2 ^ 32
  else 0

/-- What reading a register clears: its RC fields (R9). -/
def regReadClears (s : State) (t off : Nat) : State :=
  let router := fun (r o : Nat) =>
    if o = 8 then s.updRouter r fun x => { x with susp := 0, capt := 0, byej := 0, drop := 0 }
    else if o = 16 then s.updRouter r fun x => { x with retry := 0 }
    else s
  if t = 512 then
    if off = 0x1000 then { s with io := { s.io with lost := 0 } }
    else if off = 0x4008 then { s with reeve := { s.reeve with late := { s.reeve.late with drop := 0 } } }
    else if off = 0x4018 then { s with reeve := { s.reeve with census := { s.reeve.census with drop := 0 } } }
    else if 0x3000 ≤ off ∧ off < 0x3400 ∧ off % 0x10 = 8 then
      { s with io := { s.io with trapq := s.io.trapq.upd {} ((off - 0x3000) / 0x10) fun q => { q with drop := 0 } } }
    else if 0x5000 ≤ off ∧ off < 0x5400 ∧ off % 0x100 = 8 then
      { s with reeve := { s.reeve with dies := s.reeve.dies.upd {} ((off - 0x5000) / 0x100) fun d => { d with rej := 0 } } }
    else if 0xE000 ≤ off ∧ off < 0xE800 then router (512 + (off - 0xE000) / 0x100) (off % 0x100)
    else s
  else if 0xE000 ≤ off ∧ off < 0xE100 then router t (off - 0xE000)
  else if 384 ≤ t ∧ off = 0x1000 then s.updGranary (t - 384) fun g => { g with bypass := 0 }
  else s

/-! ### Writes -/

/-- A write to NETCTL (R359): a port taken down fails its link (R355). -/
def writeNetctl (s : State) (r : Nat) (v : Word) : State :=
  let t := s.updRouter r fun x => { x with down := Bits v 23 16, tmo := max 64 (Bits v 15 0) }
  if Bits v 23 16 = 0 then t else loseTasks t
/-- A write to PCTL (R440, R441): EN 0 clears DOWN, and requests outstanding at the peer then report TILE_DOWN. -/
def writePctl (s : State) (n : Nat) (v : Word) : State :=
  let en := Bits v 63 63 = 1
  let port := if Bits v 1 0 = 3 then 2 else Bits v 1 0
  let s := { s with io := { s.io with peers := s.io.peers.upd {} n fun p => { p with en := en, down := p.down && en, port := port } } }
  if en then s else failPeer s n
/-- A value with its low bits zero (R383). -/
def alignDown (v : Word) (n : Nat) : Word := BitVec.ofNat 64 (v.toNat / n * n)
/-- A write to a register of the Reeve (R382 to R386). -/
def reeveWrite (s : State) (off : Nat) (v : Word) : State :=
  let put := fun (r : Reeve) => { s with reeve := r }
  let r := s.reeve
  if off = 0x4000 then put { r with late := { r.late with base := alignDown v 16 } }
  else if off = 0x4008 then put { r with late := { r.late with head := Bits v 31 16, size := Bits v 15 0 } }
  else if off = 0x4010 then put { r with census := { r.census with base := alignDown v 16 } }
  else if off = 0x4018 then put { r with census := { r.census with tail := Bits v 47 32, size := Bits v 15 0 } }
  else if 0x4100 ≤ off ∧ off < 0x4300 then
    let q := (off - 0x4100) / 0x20
    put { r with queues := r.queues.upd {} q fun x =>
      if off % 0x20 = 0 then { x with base := alignDown v 8 }
      else if off % 0x20 = 8 then
        { x with en := Bits v 63 63 == 1, part := Bits v 61 56, die := Bits v 49 48, size := Bits v 15 0 }
      else if off % 0x20 = 16 then
        { x with tail := if x.size ≠ 0 ∧ x.size ≤ Bits v 15 0 then Bits v 15 0 % x.size else Bits v 15 0 }
      else x }
  else if 0x5000 ≤ off ∧ off < 0x5400 then
    let n := (off - 0x5000) / 0x100
    let o := off % 0x100
    put { r with dies := r.dies.upd {} n fun d =>
      if o = 0 then { d with lw := Bits v 12 0 }
      else if o = 0x10 then { d with spbase := alignDown v 256 }
      else if o = 0x18 then (if spilled s n = 0 then { d with spsize := Bits v 31 0 } else d)
      else if o = 0x20 then { d with snbase := alignDown v 4096 }
      else d }
  else s
/-- A write to a register of the I/O die (R433 to R449); `host` says that the host writes it, which makes DOORBELL raise
event 0 (R437). -/
def ioWrite (s : State) (off : Nat) (v : Word) (host : Bool) : State :=
  let put := fun (x : IoDie) => { s with io := x }
  let x := s.io
  if 0x40 ≤ off ∧ off < 0x60 then put { x with attNonce := x.attNonce.put ((off - 0x40) / 8) v }
  else if off = 0x60 then put { x with attAddr := alignDown v 64 }
  else if off = 0x68 then
    let x := if !x.attGo && Bits v 63 63 == 1 then { x with attGo := true, goNonce := x.attNonce, goAddr := x.attAddr } else x
    put { x with attDone := x.attDone && Bits v 62 62 == 0, attErr := x.attErr && Bits v 61 61 == 0 }
  else if off = 0x1008 then
    let s := put { x with doorbell := v }
    if host then s.raise 0 else s
  else if 0x2000 ≤ off ∧ off < 0x2040 then
    put { x with ports := x.ports.upd {} ((off - 0x2000) / 0x20) fun p =>
      if off % 0x20 = 0 then { p with addrh := v } else if off % 0x20 = 8 then { p with addrl := v }
      else if off % 0x20 = 16 then { p with up := Bits v 62 62 == 1, udp := Bits v 15 0 } else p }
  else if 0x2100 ≤ off ∧ off < 0x2300 then
    let n := (off - 0x2100) / 0x20
    if off % 0x20 = 16 then writePctl s n v
    else put { x with peers := x.peers.upd {} n fun p =>
      if off % 0x20 = 0 then { p with addrh := v } else if off % 0x20 = 8 then { p with addrl := v } else p }
  else if 0x3000 ≤ off ∧ off < 0x3400 then
    put { x with trapq := x.trapq.upd {} ((off - 0x3000) / 0x10) fun q =>
      if off % 0x10 = 0 then { q with base := alignDown v 32 } else { q with head := Bits v 31 16, size := Bits v 15 0 } }
  else if 0x3400 ≤ off ∧ off < 0x3600 then
    put { x with cfstat := x.cfstat.upd {} ((off - 0x3400) / 8) fun c => { c with done := c.done && Bits v 63 63 == 0 } }
  else if 0x3800 ≤ off ∧ off < 0x3840 then
    put { x with ev := x.ev.upd {} ((off - 0x3800) / 8) fun e =>
      { pend := e.pend && Bits v 63 63 == 0, host := Bits v 13 13 == 1, core := Bits v 12 12 == 1,
        cluster := min 383 (Bits v 11 3), lcore := Bits v 2 0 } }
  else if 0x4000 ≤ off ∧ off < 0x5400 then reeveWrite s off v
  else if off = 0x6000 then
    put { x with plimWin := min 10 (Bits v 19 16), plimLimit := min 2600 (max 300 (Bits v 11 0)) }
  else if off = 0x7000 then
    let s := put { x with tapen := Bits v 1 1 == 1 }
    if Bits v 0 0 = 1 then s.freeze else s
  else if 0xE000 ≤ off ∧ off < 0xE800 ∧ off % 0x100 = 0 then writeNetctl s (512 + (off - 0xE000) / 0x100) v
  else s
/-- A write to the 8-byte register at an offset of a tile's block; read-only and unlisted offsets ignore it (R9). -/
def regWrite (s : State) (t off : Nat) (v : Word) (host : Bool) : State :=
  if t = 512 then ioWrite s off v host
  else if off = 0xE000 then writeNetctl s t v
  else if t < 384 ∧ off = 0xF000 then s.updCluster t fun c => { c with ptroot := keepBits v (2 ^ 50 - 2 ^ 12 + 1) }
  else s

/-! ### Accesses of bytes (R433; DEDUCED, notes/assumptions/23.md) -/

/-- The registers that `n` bytes from an offset touch. -/
def regsOf (off n : Nat) : List Nat := ((List.range n).map fun i => (off + i) / 8 * 8).eraseDups
/-- Bytes read from a block, with the RC fields of every register touched cleared. -/
def regReadBytes (s : State) (t off n : Nat) : List Byte × State :=
  let bs := (List.range n).map fun i =>
    (toBytes 8 (regRead s t ((off + i) / 8 * 8))).getD ((off + i) % 8) 0
  (bs, (regsOf off n).foldl (fun s o => regReadClears s t o) s)
/-- Bytes written to a block: the bytes not written keep their values, and write no one-to-clear bit. -/
def regWriteBytes (s : State) (t : Nat) (bytes : Tab Byte) (host : Bool) : State :=
  ((bytes.map fun b => b.1 / 8 * 8).eraseDups).foldl (fun s o =>
    let old := toBytes 8 (regRead s t o)
    let w1c := t == 512 && (o == 0x68 || (0x3400 ≤ o && o < 0x3840))
    let new := (List.range 8).map fun i =>
      match Tab.find bytes (o + i) with
      | some b => b
      | none => if w1c && i == 7 then 0 else old.getD i 0
    regWrite s t o (BitVec.ofNat 64 (ofBytes new)) host) s

/-! ### Register writes as events -/

/-- NETCTL_WRITE (R359). The registers of a frozen die take no write (R448). -/
def execNetctlWrite (r : Nat) (v : Word) (s : State) : Host.Outcome State Fault Refusal :=
  .next (if r < 520 ∧ !(s.io.frz ∧ r < 512) then writeNetctl s r v else s)
/-- PCTL_WRITE (R441). -/
def execPctlWrite (n : Nat) (v : Word) (s : State) : Host.Outcome State Fault Refusal := .next (if n < 16 then writePctl s n v else s)
/-- REGISTER_WRITE: a write to a register of a tile's block (R9, R133). The registers of a frozen die take no write (R448). -/
def execRegisterWrite (t off : Nat) (v : Word) (s : State) : Host.Outcome State Fault Refusal :=
  .next (if t ≤ 512 ∧ !(s.io.frz ∧ t < 512) then regWrite s t (off / 8 * 8) v false else s)
/-- DOORBELL: the host writes DOORBELL (R437). -/
def execDoorbell (v : Word) (s : State) : Host.Outcome State Fault Refusal := .next (regWrite s 512 0x1008 v true)

end Sys2Proof.Machine
end

