-- ==== Sys2Proof/Machine/Home.lean ====
section
/-! DEFINITION. Homes: the LLC slices and replicas, the performing of accesses at their home, and the accesses of engines
(R137 to R140, R149, R154 to R156, R168 to R175, R196, R334, R413). -/

namespace Sys2Proof.Machine

/-! ### LLC slices (R138, R140, R154 to R156, R414) -/

/-- A replica's frame takes the bytes of a sector (R140, R154). -/
def Frame.take (f : Frame) (sector : Nat) (bs : List Byte) : Frame :=
  { f with data := f.data.put sector bs
           sectors := f.sectors.upd {} (sector / 2 % 32) fun x => { x with valid := true, mask := x.mask ||| wordMask (sector * 32) 32 } }
/-- A read of a replicated page at a slice that is not the home: from its replica, fetched from the home where the slice does
not hold it (R140). A demand miss into a set whose frames are all pinned counts as bypassed (R156). -/
def replicaRead (s : State) (slice sector : Nat) (demand : Bool) : List Byte × State :=
  let gr := granuleOf (sector * 32)
  match (s.granary slice).frames.find? fun f => f.granule == gr && f.replica with
  | some f =>
    match Tab.find f.data sector with
    | some bs => (bs, s.updGranary slice fun g => { g with frames := f :: g.frames.erase f })
    | none =>
      let bs := s.read (sector * 32) 32
      (bs, (llcTouch s (sector * 32) .read demand).updGranary slice fun g => { g with frames := f.take sector bs :: g.frames.erase f })
  | none =>
    let bs := s.read (sector * 32) 32
    (bs, (llcTouch s (sector * 32) .read demand).updGranary slice fun g =>
      match allocFrame g (({ granule := gr, replica := true } : Frame).take sector bs) with
      | some g => g
      | none => if demand then { g with bypass := capped (2 ^ 32 - 1) (g.bypass + 1) } else g)
/-- A slice that is not the home holds a replica of a sector (R140). -/
def replicaHolds (s : State) (slice sector : Nat) : Bool :=
  (s.granary slice).frames.any fun f => f.granule == granuleOf (sector * 32) && f.replica && (Tab.find f.data sector).isSome
/-- Replicas of the sectors of a physical range are dropped at every slice that a predicate names (R140). -/
def dropReplicas (s : State) (at' : Nat → Bool) (lo hi : Nat) : State :=
  { s with granaries := s.granaries.map fun e =>
      if at' e.1 then
        (e.1, { e.2 with frames := e.2.frames.map fun f =>
          if f.replica then
            let data := f.data.filter fun d => d.1 * 32 + 32 ≤ lo || hi ≤ d.1 * 32
            { f with data := data
                     sectors := (data.map fun d => d.1 / 2 % 32).eraseDups.map fun j =>
                       (j, { valid := true, mask := (data.filter fun d => d.1 / 2 % 32 == j).foldl (fun m d => m ||| wordMask (d.1 * 32) 32) 0 }) }
          else f })
      else e }

/-! ### Performing at home -/

/-- A closed guarded bell of a core that refuses a message of another core: the lowest-numbered (R334). -/
def closedBell (s : State) (k from' : Nat) : Option Nat :=
  if k = from' ∨ isGran from' then none
  else
    (((s.core k).bells.filter fun b =>
      b.2.guard && b.2.armed && b.2.count == 0 && decide (b.2.mbase ≤ clusterOf from') &&
        decide (clusterOf from' < b.2.mbase + b.2.mcnt) && b.2.cmask.testBit (lcoreOf from')).map fun b => b.1).head?

/-- The access is one that a closed guarded bell refuses: a store of any kind, a remote form, an atomic or a future operation
(R334). -/
def refusable (s : State) (a : Access) : Bool :=
  match a.kind with
  | .read =>
    match a.asker with
    | .op k e _ => (remoteLoad ((s.core k).ops.get {} e).instr).isSome
    | .fetch .. | .wback _ | .none => false
  | .readLine => false
  | .write | .atomic .. | .frd | .fwr .. => true

/-- Masked bytes of a sector written at their place in memory; a sector wholly written no longer holds an error (R413). -/
def writeMasked (s : State) (pa : Nat) (data : Tab (Byte × Nat × Nat)) : State :=
  let s := { s with mem := data.foldl (fun m b => memSet m (pa + b.1) b.2.1) s.mem }
  if data.length = 32 then { s with poison := s.poison.filter fun x => x != pa / 32 } else s

/-- The new value of an atomic of `w` bits, where it writes (R168). -/
def atomicNew (op w : Nat) (signed : Bool) (old b c : Nat) : Option Nat :=
  let b := b % 2 ^ w
  let sv := fun (x : Nat) => if signed then toSigned w x else (x : Int)
  if op = 0 then some ((old + b) % 2 ^ w)
  else if op = 1 then some (old &&& b)
  else if op = 2 then some (old ||| b)
  else if op = 3 then some (old ^^^ b)
  else if op = 4 then some (if sv b < sv old then b else old)
  else if op = 5 then some (if sv old < sv b then b else old)
  else if op = 6 then some b
  else if old = c % 2 ^ w then some b
  else none

/-- The fields of a state word of a future that must be zero are (R171). -/
def futWellFormed (w : Nat) : Bool := w / 2 ^ 25 == 0 && w / 2 ^ 3 % 32 == 0 && w % 4 != 3
/-- WAITER and GRAN of a context (R171). -/
def waiterBits (k c : Nat) : Nat :=
  (if isGran k then 2 ^ 24 + (k - 3072) * 2 ^ 15 else clusterOf k * 2 ^ 15 + lcoreOf k * 2 ^ 12) + c * 2 ^ 8
/-- The core and context that a state word names. -/
def waiterOf (w : Nat) : Nat × Nat :=
  (if w.testBit 24 then 3072 + w / 2 ^ 15 % 2 ^ 9 else w / 2 ^ 15 % 2 ^ 9 * 8 + w / 2 ^ 12 % 8, w / 2 ^ 8 % 16)

/-- What filling a future did (R27, R172). -/
inductive Fill where
  | done | full | malformed
  deriving DecidableEq, Repr
/-- A future at a physical address is filled with a value at its home `i`: an empty cell becomes full, a waiting one gives the
value to its reader (R27, R172). GRAN is cleared with WAITER (DEDUCED, notes/assumptions/48.md). -/
def fillFuture (s : State) (i pa : Nat) (v : Nat) (anyway : Bool) : Fill × State :=
  let w := s.readN (pa + 8) 8
  if !futWellFormed w then (.malformed, s)
  else if w % 4 = 0 then (.done, (s.writeN pa 8 v).writeN (pa + 8) 8 (w / 4 * 4 + 1))
  else if w % 4 = 2 then
    let (k, c) := waiterOf w
    let s := (s.writeN pa 8 v).writeN (pa + 8) 8 (w % 8 / 4 * 4)
    (.done, s.submit i (tileOf k) .reply (.wake k c (BitVec.ofNat 64 v)))
  else if anyway then (.done, (s.writeN pa 8 v).writeN (pa + 8) 8 (w / 8 * 8 + 5))
  else (.full, s)

/-- The operation of an access waits at its home for a value (R172). -/
def park (s : State) (a : Access) : State :=
  match a.asker with
  | .op k e _ => s.updCore k fun x => { x with ops := x.ops.upd {} e fun o => { o with stage := .parked } }
  | .fetch .. | .wback _ | .none => s

/-- An access is performed on the bytes of memory at its home, interface `i` (R139, R168, R172). -/
def performMem (s : State) (i : Nat) (a : Access) : State :=
  let bad := s.poison.contains (a.pa / 32)
  match a.kind with
  | .read | .readLine =>
    if bad then failAccess s i a .poison 0 else answerAccess s i a (s.read a.pa a.n) none
  | .write => answerAccess (writeMasked s a.pa a.data) i a [] none
  | .atomic op w sg b c =>
    if bad then failAccess s i a .poison 0
    else
      let old := s.readN a.pa (w / 8)
      let t := match atomicNew op w sg old b c with
        | some n => s.writeN a.pa (w / 8) n
        | none => s
      answerAccess t i a (toBytes (w / 8) old) none
  | .frd =>
    let w := s.readN (a.pa + 8) 8
    if bad then failAccess s i a .poison 0
    else if !futWellFormed w then failAccess s i a .futForm 0
    else if w % 4 = 1 then answerAccess (s.writeN (a.pa + 8) 8 (w / 4 * 4)) i a (s.read a.pa 8) none
    else if w % 4 = 2 then failAccess s i a .futBusy 0
    else park (s.writeN (a.pa + 8) 8 (w % 8 / 4 * 4 + 2 + waiterBits a.core a.ctx)) a
  | .fwr v anyway =>
    if bad then failAccess s i a .poison 0
    else
      match fillFuture s i a.pa v anyway with
      | (.done, t) => answerAccess t i a [] none
      | (.full, t) => failAccess t i a .futFull 0
      | (.malformed, t) => failAccess t i a .futForm 0

/-- A write to registers of a block, or an atomic on one (R134). A future operation there raises FUT_FORM, whatever the registers hold
(DESIGN CHOICE, notes/assumptions/48.md). -/
def performRegs (s : State) (i t off : Nat) (a : Access) : State :=
  match a.kind with
  | .read | .readLine =>
    let (bs, s) := regReadBytes s t off a.n
    answerAccess s i a bs none
  | .write => answerAccess (regWriteBytes s t (a.data.map fun b => (off + b.1, b.2.1)) false) i a [] none
  | .atomic op w sg b c =>
    let (bs, s) := regReadBytes s t off (w / 8)
    let s := match atomicNew op w sg (ofBytes bs) b c with
      | some n => regWriteBytes s t ((toBytes (w / 8) n).mapIdx fun j x => (off + j, x)) false
      | none => s
    answerAccess s i a bs none
  | .frd | .fwr .. => failAccess s i a .futForm 0

/-- The lowest tag that a list does not hold. -/
def freeTag (l : List Nat) : Nat := ((List.range (l.length + 1)).find? fun t => !l.contains t).getD 0
/-- The tags of the messages to peers that stand: requests, and answers that are not acknowledged (R441). -/
def peerTags (s : State) : List Nat := (s.io.peerMsgs.map fun o => o.tag) ++ s.io.peerAns.map fun o => o.tag
/-- The pair of source tile and peer of an access. -/
def peerKey (a : Access) : Nat := tileOf a.core * 16 + peerOf a.pa
/-- A home-performed access of a context stands at the host, and an access of the context comes after it (R186). -/
def hostBefore (s : State) (a : Access) : Bool :=
  let cs := a.ctx :: (storersOf a.data a.hid).map Prod.fst
  a.kind != .readLine && s.io.pcie.any fun o => o.access.kind != .readLine && o.access.core == a.core && cs.contains o.access.ctx
/-- An access waits at the I/O die before it leaves: earlier ones of its context stand at the host, 1,024 requests to the host hold the
10-bit tags, or the window of 64 messages of its source tile and peer is closed (R186, R351, R434, R441). -/
def outerWaits (s : State) (a : Access) : Bool :=
  match homeAt a.pa with
  | .host => hostBefore s a || (s.io.link && a.kind != .write && decide (1024 ≤ s.io.pcie.length))
  | .peer n _ =>
    peerUp s n && s.io.peerMsgs.any fun o => !o.acked && peerKey o.access == peerKey a && o.seq + 64 == s.io.peerSeq.get 0 (peerKey a)
  | _ => false
/-- The first access of a list that may be performed, the accesses of one tile in their order. -/
def nextHere (s : State) : List Nat → List Access → Option Access
  | _, [] => none
  | held, a :: t =>
    if held.contains (tileOf a.core) then nextHere s held t
    else if outerWaits s a then nextHere s (tileOf a.core :: held) t
    else some a
/-- An access leaves for the host or for a peer: posted writes to the host are performed there at once, and every other request
waits for its answer (R436, R441; DEDUCED, notes/assumptions/42.md). -/
def performOuter (s : State) (i : Nat) (peer : Option Nat) (a : Access) : State :=
  let ask := fun (_ : Unit) => { s with io := { s.io with pcie := s.io.pcie ++ [{ tag := freeTag (s.io.pcie.map fun o => o.tag), access := a, back := i }] } }
  match peer with
  | none =>
    match a.kind with
    | .write =>
      answerAccess (if s.io.link then writeMasked s a.pa a.data else s.lostWrite) i a [] none
    | .atomic op .. =>
      if op ≠ 0 ∧ op ≠ 6 ∧ op ≠ 7 then failAccess s i a .atomOp 0
      else if s.io.link then ask () else failAccess s i a .tileDown 0
    | .read | .readLine | .frd | .fwr .. => if s.io.link then ask () else failAccess s i a .tileDown 0
  | some n =>
    if peerUp s n then
      let key := peerKey a
      let seq := s.io.peerSeq.get 0 key
      { s with io := { s.io with
          peerMsgs := s.io.peerMsgs ++ [{ tag := freeTag (peerTags s), access := a, back := i, seq := seq }]
          peerSeq := s.io.peerSeq.put key (seq + 1) } }
    else failAccess s i a .tileDown 0

/-- A write with the bytes of a line that held an uncorrectable error leaves the error in its sector (R413; DESIGN CHOICE,
notes/assumptions/46.md). -/
def markError (s : State) (a : Access) : State :=
  if a.err && !s.poison.contains (a.pa / 32) then { s with poison := s.poison ++ [a.pa / 32] } else s
/-- An access that has arrived at interface `i` is performed (R139): at the slice that holds a replica, or at the home. One that has met
an uncorrectable error in a line is answered with it (R413). -/
def perform (s : State) (i : Nat) (a : Access) : State :=
  if a.err && a.kind == .read then failAccess s i a .poison 0
  else
  match homeAt a.pa with
  | .tcm k _ | .istore k _ =>
    match (if refusable s a then closedBell s k a.core else none) with
    | some b => failAccess s i a .doneTarget (BitVec.ofNat 32 b)
    | none => performMem s i a
  | .scratch cl off =>
    if (s.cluster cl).ways.s * 0x40000 ≤ off then failAccess s i a .scratchRange 0 else performMem s i a
  | .device =>
    if a.replica ∧ i ≠ 384 + homeGran a.pa then
      if !replicaHolds s (i - 384) (a.pa / 32) && unreachable s i (384 + homeGran a.pa) then failAccess (s.refusedAt i) i a .tileDown 0
      else if s.poison.contains (a.pa / 32) then failAccess s i a .poison 0
      else
        let (bs, s) := replicaRead s (i - 384) (a.pa / 32) (!a.pref)
        answerAccess s i a ((bs.drop (a.pa % 32)).take a.n) none
    else
      let touch : Touch := match a.kind with
        | .read | .readLine => .read
        | .write => .write (a.data.map fun b => a.pa + b.1)
        | .atomic .. | .frd | .fwr .. => .modify
      markError (performMem (llcTouch s a.pa touch (!a.pref)) i a) a
  | .host => performOuter s i none a
  | .peer n _ => performOuter s i (some n) a
  | .regs t off => performRegs s i t off a
  | .nowhere => failAccess s i a .page 0

/-- HOME_ACCESS: a tile performs the access that has waited there longest; at the I/O die those pass it whose source tile is another, while
it waits for an earlier one, a tag or a window (R139, R186, R434, R441). -/
def execHomeAccess (i : Nat) (s : State) : Host.Outcome State Fault Refusal :=
  .next (if s.tileStopped i then s
    else
      match nextHere s [] (s.iface i).arr with
      | none => s
      | some a => perform (s.updIface i fun x => { x with arr := x.arr.erase a }) i a)

/-! ### Accesses of engines (R196; DEDUCED, notes/assumptions/13.md) -/

/-- The first fault of the pieces of a core's access at their homes: cause and virtual address. -/
def barsPieces (s : State) (k : Nat) (write : Bool) : List Part → Option (Cause × Nat)
  | [] => none
  | p :: t =>
    match homeBars s (tileOf k) write p.pa with
    | some c => some (c, p.va)
    | none => barsPieces s k write t

/-- A read of host memory by an engine is completed by the host with UR or CA, or not in time: free (R436; DEDUCED,
notes/assumptions/13.md). -/
def hostFails (s : State) (ps : List Part) : Option Part :=
  if Config.pick s.freeCtr % 2 = 0 then ps.find? fun p => homeAt p.pa == .host else none
/-- An access of an engine of a core, checked: its pieces, or the cause, the address and the table level (R130 to R136, R149,
R317). -/
def engCheck (s : State) (k : Nat) (sup write : Bool) (va n : Nat) : Except (Cause × Nat × Nat) (List Part) :=
  match engResolve s k sup write va n with
  | .bad c v l => .error (c, v, l)
  | .miss => .error (.page, va, 0)
  | .ok ps =>
    match barsPieces s k write ps with
    | some (c, v) => .error (c, v, 0)
    | none =>
      match (if write then none else hostFails s ps) with
      | some p => .error (.tileDown, p.va, 0)
      | none => .ok ps

/-- Bytes that the host or a peer returns to an engine: free (DEDUCED, notes/assumptions/13.md). -/
def freeBytes (s : State) (n : Nat) : List Byte × State :=
  ((List.range n).map (fun i => BitVec.ofNat 8 ((Config.freeWord (s.freeCtr + i)).toNat)), { s with freeCtr := s.freeCtr + n })

/-- Bytes read at their homes by a unit of tile `src`, and whether a sector of them holds an uncorrectable error (R413). -/
def engReadParts (s : State) (src : Nat) : List Part → List Byte × Bool × State
  | [] => ([], false, s)
  | p :: t =>
    let (bs, s) := match homeAt p.pa with
      | .host | .peer .. => freeBytes s p.n
      | .regs tl off => regReadBytes s tl off p.n
      | .device => (s.read p.pa p.n, llcTouch s p.pa .read true)
      | .tcm .. | .istore .. | .scratch .. | .nowhere => (s.read p.pa p.n, s)
    let bad := s.poison.contains (p.pa / 32)
    let (bs', bad', s) := engReadParts (s.messaged src p.pa) src t
    (bs ++ bs', bad || bad', s)

/-- Bytes written at their homes by a unit of tile `src`, or by the host (R437). -/
def engWriteParts (s : State) (src : Nat) (ps : List Part) (data : List Byte) (host : Bool := false) : State :=
  ps.foldl (fun s p =>
    let s := s.messaged src p.pa
    let bs := (data.drop p.off).take p.n
    match homeAt p.pa with
    | .regs tl off => regWriteBytes s tl (bs.mapIdx fun j x => (off + j, x)) host
    | _ => s.putSector p.pa bs) s

/-- A peer has stopped answering: DOWN, event 5, and TILE_DOWN for every request outstanding there (R441). -/
def peerDown (s : State) (n : Nat) : State :=
  (failPeer { s with io := { s.io with peers := s.io.peers.upd {} n fun p => { p with down := true } } } n).raise 5
/-- The first peer that answers requests among the homes of an engine's access. -/
def peerMet (s : State) (k va n : Nat) : Option Nat :=
  (pieces va n).findSome? fun q =>
    match engLook s k true false q.1 with
    | .ok pa _ =>
      match homeAt pa with
      | .peer m _ => if peerUp s m then some m else none
      | _ => none
    | .miss | .bad .. => none
/-- What an engine's access to `n` bytes needs: the walks, and, at a peer, that it acknowledges the request at all, which is free
(R135, R441; DEDUCED, notes/assumptions/13.md). -/
def engReach (s : State) (k va n : Nat) : State :=
  let s := engWalk s k va n
  match peerMet s k va n with
  | none => s
  | some m => if Config.pick s.freeCtr % 4 = 3 then peerDown s.spend m else s.spend
/-- A value of `n` bytes read by an engine of a core: the value and the state, or the cause, the address and the level. -/
def engRead (s : State) (k : Nat) (sup : Bool) (va n : Nat) : Except (Cause × Nat × Nat) (Nat × State) :=
  let s := engReach s k va n
  match engCheck s k sup false va n with
  | .error e => .error e
  | .ok ps =>
    match engReadParts s (tileOf k) ps with
    | (bs, false, s) => .ok (ofBytes bs, s)
    | (_, true, _) => .error (.poison, va, 0)
/-- The lowest closed guarded bell that refuses a core's write to one of these pieces (R334). -/
def bellBars (s : State) (k : Nat) (ps : List Part) : Option Nat :=
  ps.findSome? fun p =>
    match homeAt p.pa with
    | .tcm j _ | .istore j _ => closedBell s j k
    | _ => none
/-- A value of `n` bytes written by an engine of a core. A closed guarded bell refuses it with DONE_TARGET, which names the bell
(R334). -/
def engWrite (s : State) (k : Nat) (sup : Bool) (va n v : Nat) : Except (Cause × Nat × Nat) State :=
  let s := engReach s k va n
  match engCheck s k sup true va n with
  | .error e => .error e
  | .ok ps =>
    match bellBars s k ps with
    | some b => .error (.doneTarget, va, b)
    | none => .ok (engWriteParts s (tileOf k) ps (toBytes n v))

end Sys2Proof.Machine
end

