-- ==== Sys2Proof/Machine/Drain.lean ====
section
/-! DEFINITION. The events of a core's memory operations: translation walks, the draining of the write buffer, the return of
data, and cache maintenance as it is performed (R135, R142, R162, R165, R166, R172, R178 to R180, R402). -/

namespace Sys2Proof.Machine

/-! ### Translation (R135, R402, R403) -/


/-- The first address of an access whose translation is missing. -/
def firstMiss (s : State) (k : Nat) (sup write : Bool) (va n : Nat) : Option Nat :=
  ((pieces va n).find? fun q => look s k sup write q.1 == .miss).map fun q => q.1

/-- A fetch that waited for its translation sends its request when it may, or is marked faulted (R166, R167). -/
def fetchStart (s : State) (k i : Nat) : State :=
  let o := (s.core k).fetches.get {} i
  match resolve s k o.sup false o.ea.toNat o.size with
  | .miss => s
  | .bad c va l =>
    s.updCore k fun x =>
      { x with fetches := x.fetches.put i { o with flt := some c, faddr := BitVec.ofNat 64 va, info := accessInfo c false l 0, stage := .wait } }
  | .ok ps =>
    if ps.any (loadWaits s k o.ctx o.stamp) then s
    else
    let (s, ps) := sendLoadParts s k o.ctx o.stamp (fun j => .fetch k i j) .fetch 0 ps
    s.updCore k fun x => { x with fetches := x.fetches.put i { o with stage := .wait, parts := ps } }


/-- A walk for an operation ends: the page enters the TLB and `go` is made, or `fail` takes the level that failed (R402). -/
def walkThen (s : State) (k : Nat) (o : Op) (write : Bool) (go : State → State) (fail : State → Nat → Cause × Nat → State) : State :=
  match firstMiss s k o.sup write o.ea.toNat o.size with
  | none => go s
  | some va =>
    match walkPage s (clusterOf k) va with
    | .ok _ => go (walked s (clusterOf k) va)
    | .error l => fail (walked s (clusterOf k) va) va l

/-- TRANSLATION_WALK: the walker ends the walk of an operation of a core: entries 0 to 63 of the operand log, or 128 + i for
entry i of the fetch table (R135, R351, R402). -/
def execTranslationWalk (k e : Nat) (s : State) : Host.Outcome State Fault Refusal :=
  .next (if s.coreStill k then s
    else if 128 ≤ e then
      match Tab.find (s.core k).fetches (e - 128) with
      | some o =>
        if o.stage = .walk ∧ o.flt.isNone then
          s.ifInTurn (walkThen s k o false (fun s => fetchStart s k (e - 128)) fun s va l =>
            let o := { o with flt := some l.1, faddr := BitVec.ofNat 64 va, info := accessInfo l.1 false l.2 0, stage := .wait }
            s.updCore k fun x => { x with fetches := x.fetches.put (e - 128) o })
        else s
      | none => s
    else
      match Tab.find (s.core k).ops e with
      | some o =>
        if o.stage = .walk ∧ o.flt.isNone then
          s.ifInTurn (walkThen s k o (opWrites o.instr) (fun s => opStart s k e) fun s va l =>
            opFault s k e l.1 va (accessInfo l.1 (opWrites o.instr) l.2 0))
        else s
      | none => s)

/-! ### The write buffer drains (R142, R149, R185) -/


/-- Bytes of a page with C = 1 go into L1, dirty (R142, R143). -/
def l1Store (s : State) (k : Nat) (e : WbEntry) : State :=
  let l := ((findLine (s.core k).l1 e.sector).getD { addr := e.sector, wpage := e.wpage, bytes := [] }).overlay
    (e.bytes.map fun b => (b.1, b.2.1))
  l1Use s k l

/-- Bytes beyond the scratch part are refused, and each context that stored one is told once (R149). -/
def refuseBytes (s : State) (k : Nat) (e : WbEntry) : State :=
  (storersOf e.bytes e.hid).foldl (fun s (c, st) => s.report k c { cause := .scratchRange, stamp := st }) s

/-- An entry leaves the write buffer: into L1, to the core's own TCM, instruction store or scratch, or as a write to the home
(R139, R142). -/
def drainEntry (s : State) (k : Nat) (e : WbEntry) : State :=
  let s := s.updCore k fun x => { x with wb := x.wb.erase e }
  if e.cached then l1Store s k e
  else
    match homeAt (e.sector * 32) with
    | .tcm k' _ | .istore k' _ =>
      if k' = k then writeMasked s (e.sector * 32) e.bytes else sendWrite s k e.sector [k] e.bytes false e.hid
    | .scratch cl off =>
      if isGran k ∨ cl ≠ clusterOf k then sendWrite s k e.sector [k] e.bytes false e.hid
      else if (s.cluster cl).ways.s * 0x40000 ≤ off then refuseBytes s k e
      else writeMasked s (e.sector * 32) e.bytes
    | .device | .host | .peer .. | .regs .. | .nowhere => sendWrite s k e.sector [k] e.bytes false e.hid

/-- WRITE_BUFFER_DRAIN: the oldest entry of a bank drains (R142). -/
def execWriteBufferDrain (k bank : Nat) (s : State) : Host.Outcome State Fault Refusal :=
  .next (if s.coreStill k then s
    else
      match (s.core k).wb.find? fun e => e.bank == bank with
      | some e => drainEntry s k e
      | none => s)

/-! ### Cache maintenance (R178 to R180) -/

/-- The stores of a range leave the core's write buffer. -/
def dropWb (s : State) (k pa n : Nat) : State := s.updCore k fun x => { x with wb := x.wb.filter fun e => !sectorIn pa n e.sector }

/-- `cwb` of one physical range: dirty bytes below the level are written to the level, and the lines stay valid (R179). The write
buffer holds nothing of the range by then. Below a level above core lie the L1 of the issuing core and its own cluster's cache part, and no
other core's L1 (DEDUCED, notes/assumptions/49.md). -/
def cwbPart (s : State) (k : Nat) (sc : Scope) (pa n : Nat) : State :=
  match sc with
  | .ctx | .core => s
  | .clu =>
    let ls := (s.core k).l1.filter fun l => sectorIn pa n l.addr
    let s := ls.foldl (fun s l => ccWrite s k l) s
    s.updCore k fun x => { x with l1 := x.l1.map fun l => if sectorIn pa n l.addr then l.clean else l }
  | .dom | .die | .dev | .sys | .res7 =>
    let ls := (s.core k).l1.filter fun l => sectorIn pa n l.addr
    let s := ls.foldl (fun s l => l1Home s k l) s
    let s := s.updCore k fun x => { x with l1 := x.l1.map fun l => if sectorIn pa n l.addr then l.clean else l }
    ccHome s k fun l => sectorIn pa n l.addr
/-- `cinv` of one physical range: lines below the level are discarded, dirty bytes included, and replicas at dev and sys
(R179), in the caches that a `cwb` of the core acts on (DEDUCED, notes/assumptions/49.md). Lines on their way to the core are not kept. -/
def cinvPart (s : State) (k : Nat) (sc : Scope) (pa n : Nat) : State :=
  let s := dropWb s k pa n
  let dropL1 := fun (s : State) (ks : List Nat) =>
    (unkeep s ks fun p => sectorIn pa n (p.pa / 32)).updCore k fun x => { x with l1 := x.l1.filter fun l => !sectorIn pa n l.addr }
  let dropCc := fun (s : State) =>
    if isGran k then s else s.updCluster (clusterOf k) fun c => { c with cc := c.cc.filter fun l => !sectorIn pa n l.addr }
  match sc with
  | .ctx | .core => s
  | .clu => dropL1 s [k]
  | .dom | .die => dropCc (dropL1 s (cacheCores k))
  | .dev | .sys | .res7 => dropReplicas (dropCc (dropL1 s (cacheCores k))) (fun _ => true) pa (pa + n)
/-- The sectors of a physical range. -/
def sectorsOf (pa n : Nat) : List Nat := (List.range ((pa % 32 + n + 31) / 32)).map fun i => pa / 32 + i
/-- The level that a scope names for the lines of a core: 0 L1, 1 the cluster cache part, 2 the home (R145). -/
def levelOf (s : State) (k : Nat) : Scope → Nat
  | .ctx | .core => 0
  | .clu => if isGran k ∨ (s.cluster (clusterOf k)).cacheWays = 0 then 2 else 1
  | .dom | .die | .dev | .sys | .res7 => 2
/-- The lines that a `pref` asks for, as pieces in increasing address order: those that the level does not hold whole (R179). -/
def prefParts (s : State) (k level a n : Nat) : List Part :=
  (mappedParts s k a n).flatMap fun q =>
    if !q.2.2.2.cached then []
    else
      (sectorsOf q.2.1 q.2.2.1).filterMap fun x =>
        let whole := fun (l : Line) => l.bytes.length == 32
        let held := (findLine (if level = 0 then (s.core k).l1 else (s.cluster (clusterOf k)).cc) x).any whole
        if held then none
        else some { va := q.1 + x * 32 - q.2.1, pa := x * 32, off := 0, n := 32, attrC := true, attrW := q.2.2.2.wpage, attrR := q.2.2.2.repl }
/-- A `pref` is performed: it asks for its lines, or its home slices take them (R156, R179). -/
def prefBegin (s : State) (k e : Nat) (o : Op) (sc : Scope) (a n : Nat) : State :=
  let level := levelOf s k sc
  let s := (pageParts (n / 65536 + 2) a n).foldl (fun s q => engWalk s k q.1 1) s
  if level = 2 then
    let s := (mappedParts s k a n).foldl (fun s q => (sectorsOf q.2.1 q.2.2.1).foldl (fun s x => llcTouch s (x * 32) .read false) s) s
    s.updCore k fun x => { x with ops := x.ops.put e { o with prog := 1 } }
  else
    let (s, ps) := sendLoadParts s k o.ctx o.stamp (fun i => .op k e i) .pref 0 (prefParts s k level a n)
    s.updCore k fun x => { x with ops := x.ops.put e { o with prog := 1, parts := ps } }
/-- The lines of a `pref` enter its level in order (R179). -/
def prefFill (s : State) (k : Nat) (o : Op) (sc : Scope) : State :=
  o.parts.foldl (fun s p =>
    match p.got with
    | some bs =>
      if bs.length ≠ 32 ∨ !p.keep then s
      else if levelOf s k sc = 1 then ccFill s k (p.pa / 32) p.attrW bs
      else fillLine s k (p.pa / 32) p.attrW bs
    | none => s) s

/-- The granule at a physical device address is pinned in its home slice; `false` where its set holds only pinned frames
(R180). A granule that is pinned already is taken, not refused (DEDUCED, notes/assumptions/49.md). -/
def pinGranule (s : State) (pa : Nat) : Bool × State :=
  let gr := granuleOf pa
  let g := s.granary (homeGran pa)
  let all : Tab LlcSector := (List.range 32).map fun j => (j, { valid := true, mask := 65535 })
  match g.frames.find? fun f => f.granule == gr && !f.replica with
  | some f =>
    let f' := { f with pin := true, sectors := (List.range 32).map fun j => (j, { f.sectors.get {} j with valid := true, mask := 65535 }) }
    (true, s.updGranary (homeGran pa) fun g => { g with frames := f' :: g.frames.erase f })
  | none =>
    match allocFrame g { granule := gr, pin := true, sectors := all } with
    | some g => (true, s.updGranary (homeGran pa) fun _ => g)
    | none => (false, s)
/-- The pin bit of a granule is cleared (R180). -/
def unpinGranule (s : State) (pa : Nat) : State :=
  let gr := granuleOf pa
  s.updGranary (homeGran pa) fun g =>
    { g with frames := g.frames.map fun f => if f.granule = gr ∧ !f.replica then { f with pin := false } else f }
/-- The granules of 2 KiB that overlap a range, by the virtual address of each. -/
def granulesOf (a n : Nat) : List Nat := if n = 0 then [] else (List.range ((a % 2048 + n + 2047) / 2048)).map fun i => (a / 2048 + i) * 2048
/-- The physical device address of a granule of a core's range, if it has one. -/
def granuleAt (s : State) (k va : Nat) : Option Nat :=
  ((mappedParts s k va 1).head?.map fun q => q.2.1).bind fun pa => if homeAt pa = .device then some pa else none

/-- `cpin` over a range: the number of granules refused (R180). -/
def pinRange (s : State) (k a n : Nat) : Nat × State :=
  (granulesOf a n).foldl (fun (r, s) va =>
    match granuleAt s k va with
    | none => (r + 1, s)
    | some pa =>
      match pinGranule s pa with
      | (true, s) => (r, s)
      | (false, s) => (r + 1, s)) (0, s)

/-- The first page of a range that the privilege of the operation may not write: its address (R134, R179, R402). -/
def unwritable (s : State) (k : Nat) (sup : Bool) (a n : Nat) : Option Nat :=
  ((mappedParts s k a n).find? fun q =>
    match engLook s k sup true q.1 with
    | .bad .prot _ => true
    | _ => false).map fun q => q.1

/-- A cache-maintenance operation other than `pref` is performed: its effect, or the address of the page that PROT names (R179, R180). -/
def maintEffect (s : State) (k c : Nat) (i : Instr) (sup : Bool) (a n : Nat) : Except Nat State :=
  let each := fun (s : State) (f : State → Nat → Nat → State) => (mappedParts s k a n).foldl (fun s q => f s q.2.1 q.2.2.1) s
  let dst := fun (s : State) (d : R5) (v : Nat) => s.updCtx k c fun x => x.writeG d.toNat (BitVec.ofNat 64 v)
  match i with
  | .cwb _ _ sc => .ok (each s fun s pa m => cwbPart s k sc pa m)
  | .cinv _ _ sc =>
    match unwritable s k sup a n with
    | some va => .error va
    | none => .ok (each s fun s pa m => cinvPart s k sc pa m)
  | .cwbi _ _ sc =>
    match unwritable s k sup a n with
    | some va => .error va
    | none => .ok (each (each s fun s pa m => cwbPart s k sc pa m) fun s pa m => cinvPart s k sc pa m)
  | .cpin d _ _ =>
    let (r, s) := pinRange s k a n
    .ok (dst s d r)
  | .cunpin d _ _ => .ok (dst ((granulesOf a n).foldl (fun s va =>
      match granuleAt s k va with
      | some pa => unpinGranule s pa
      | none => s) s) d 0)
  | _ => .ok s

/-! ### Data returns (R162, R165, R168, R172) -/

/-- The entry of an operation is freed. -/
def freeOp (s : State) (k e : Nat) : State := s.updCore k fun x => { x with ops := x.ops.del e }
/-- The lines that a load's answers brought fill the caches (R143). -/
def fillParts (s : State) (k : Nat) (ps : List Part) : State :=
  ps.foldl (fun s p =>
    match p.got with
    | some bs => if p.sent && p.attrC && p.keep && bs.length == 32 then fillLine s k (p.pa / 32) p.attrW bs else s
    | none => s) s
/-- The register that an operation's result goes to is written (R161, R165, R168, R172). -/
def writeResult (s : State) (k : Nat) (o : Op) : State :=
  let put := fun (d : R5) (v : Word) => s.updCtx k o.ctx fun x => x.writeG d.toNat v
  match loadForm o.instr with
  | some (n, sg, vec) =>
    match (o.instr.destinations).head? with
    | some (_, d) => s.updCtx k o.ctx fun x => loadDest x (BitVec.ofNat 5 d) n sg vec o.bytes
    | none => s
  | none =>
    match o.instr with
    | .rldw d _ _ => put d (loadValue 4 true o.bytes)
    | .rldd d _ _ => put d (loadValue 8 false o.bytes)
    | .frd d _ => put d (loadValue 8 false o.bytes)
    | .aadd d _ _ _ _ t | .aand d _ _ _ _ t | .aor d _ _ _ _ t | .axor d _ _ _ _ t | .amin d _ _ _ _ t | .amax d _ _ _ _ t
    | .aswp d _ _ _ _ t | .acas d _ _ _ _ t => put d (opExt t (ofBytes o.bytes))
    | _ => s

/-- A load, a remote form, an atomic or a future operation completes: caches, destination, acquire (R147, R162). A context
blocked in `frd` is ready again (R24). -/
def completeOp (s : State) (k e : Nat) (o : Op) : State :=
  let done := { o with parts := o.parts.map (partMerged s k) }
  let s := freeOp (writeResult (fillParts s k o.parts) k done) k e
  let s := match acquireOf o.instr with
    | some sc => acquireNow s k sc
    | none => s
  leaveFrd s k o.ctx e

/-- A store that waited for its translation enters the write buffer when it may (R142, R185, R186). -/
def completeStore (s : State) (k e : Nat) (o : Op) : State :=
  if ringGuarded s k o.parts then opFault s k e .ringOwned 0 0
  else if (s.core k).storeReady o.ctx o.stamp o.parts then
    freeOp (storeEnter s k o.ctx o.stamp o.parts o.data o.ea.toNat o.cover) k e
  else s

/-- The operation writes back lines (R179). -/
def writesBack : Instr → Bool
  | .cwb .. | .cwbi .. => true
  | _ => false
/-- The write buffer holds stores of the range of a `cwb` or `cwbi`, which go to L1 or to their homes first (R179). -/
def maintWaits (s : State) (k : Nat) (o : Op) : Bool :=
  writesBack o.instr &&
    (mappedParts s k o.ea.toNat ((o.vals[1]?).getD 0).toNat).any fun q => (s.core k).wb.any fun e => sectorIn q.2.1 q.2.2.1 e.sector
/-- The write-backs of a cache maintenance have reached their level: those of the cores that share the caches are performed (R177,
R179). -/
def writtenBack (s : State) (k : Nat) (o : Op) : Bool := !writesBack o.instr || (cacheCores k).all fun j => (s.core j).wbOut == 0
/-- A cache-maintenance operation is performed, or is marked faulted; it completes when what it has written or asked for is there (R178,
R179). Its `prog` says that it has been performed. -/
def completeMaint (s : State) (k e : Nat) (o : Op) : State :=
  let n := ((o.vals[1]?).getD 0).toNat
  let go := fun (o : Op) => { o with prog := 1 }
  match o.instr with
  | .pref _ _ sc =>
    if o.prog = 0 then s.ifInTurn (prefBegin s k e o sc o.ea.toNat n)
    else if o.parts.any (fun p => p.again) then
      let (s, ps) := sendLoadParts s k o.ctx o.stamp (fun i => .op k e i) .pref 0 o.parts
      s.updCore k fun x => { x with ops := x.ops.put e { o with parts := ps } }
    else freeOp (prefFill s k o sc) k e
  | i =>
    if o.prog ≠ 0 then (if writtenBack s k o then freeOp s k e else s)
    else if maintWaits s k o then s
    else
      match maintEffect s k o.ctx i o.sup o.ea.toNat n with
      | .error va => opFault s k e .prot va (accessInfo .prot true 0 0)
      | .ok t => if writtenBack t k o then freeOp t k e else t.updCore k fun x => { x with ops := x.ops.upd {} e go }

/-- A `fetch` that its fault moved into the operand log completes after its replay (R167, R400). -/
def completeFetch (s : State) (k e : Nat) (o : Op) (n : BitVec 7) : State :=
  let o := { o with parts := o.parts.map (partMerged s k) }
  semIncr (freeOp (s.write (tcmBase k + o.prog) o.bytes) k e) k o.ctx n.toNat false o.stamp

/-- LOAD_DATA_RETURN: an operation of the operand log whose data or completion is back completes (R162). An acquire waits for
the earlier loads of its context (R147). -/
def execLoadDataReturn (k e : Nat) (s : State) : Host.Outcome State Fault Refusal :=
  .next (if s.coreStill k then s
    else
      match Tab.find (s.core k).ops e with
      | none => s
      | some o =>
        if !o.allGot && !(isPlainStore o.instr && o.stage == .wait && o.flt.isNone) then s
        else if isPlainStore o.instr then completeStore s k e o
        else if isMaint o.instr then completeMaint s k e o
        else if ((loadForm o.instr).isSome || isFetch o.instr) && o.parts.any (fun p => p.again) then
          let (s, ps) := sendLoadParts s k o.ctx o.stamp (fun i => .op k e i) (if isFetch o.instr then .fetch else .load) 0 o.parts
          s.updCore k fun x => { x with ops := x.ops.put e { o with parts := ps } }
        else
          match o.instr with
          | .save .. | .saveRes .. | .rest .. => s
          | .fetch _ _ n => if (s.core k).loadsPending o.ctx o.stamp then s else completeFetch s k e o n
          | _ =>
            if (acquireOf o.instr).isSome && (s.core k).loadsPending o.ctx o.stamp then s
            else completeOp s k e o)

/-! ### Performing an operation again (R399, R400) -/

/-- An operation is started again, its walks made at once; `fuel` bounds the pages of the access (R402). -/
def opRetry : Nat → State → Nat → Nat → State
  | 0, s, _, _ => s
  | fuel + 1, s, k, e =>
    let o := (s.core k).ops.get {} e
    let wr := opWrites o.instr
    match firstMiss s k o.sup wr o.ea.toNat o.size with
    | some va =>
      match walkPage s (clusterOf k) va with
      | .ok _ => opRetry fuel (walked s (clusterOf k) va) k e
      | .error l => opFault (walked s (clusterOf k) va) k e l.1 va (accessInfo l.1 wr l.2 0)
    | none =>
      match resolve s k o.sup wr o.ea.toNat o.size with
      | .ok ps =>
        match (if isPlainStore o.instr then none else barsPieces s k (remoteStore o.instr).isSome ps) with
        | some (c, va) => opFault s k e c va (accessInfo c wr 0 0)
        | none => opStart s k e
      | .bad .. | .miss => opStart s k e
/-- An operation that an entry holds is performed again at once, as far as it is not held back or answered from afar: a fault of its
translation, rights or homes marks it again (R399, R400; DEDUCED, notes/assumptions/52.md). -/
def opAgain (s : State) (k e : Nat) : State :=
  let s := opRetry 4 s k e
  match Tab.find (s.core k).ops e with
  | none => s
  | some o =>
    if o.flt.isSome ∨ o.stage ≠ .wait then s
    else if isPlainStore o.instr then completeStore s k e o
    else if isMaint o.instr then completeMaint s k e o
    else s

end Sys2Proof.Machine
end

