-- ==== Sys2Proof/Machine/Vector.lean ====
section
/-! DEFINITION. The vector unit: what each vector instruction computes, the vector queue, lane groups, gathers, scatters,
accumulator rows and sorted-set intersection (R204 to R235). -/

namespace Sys2Proof.Machine

/-! ### Queue entries (R205, R206, R397) -/

/-- The entry number that a queue takes next: the first free one of its 16, in turn (R397; DEDUCED, notes/assumptions/10.md). -/
def nextIdx (x : Core) (q : Nat) (l : List Cmd) : Nat :=
  (((List.range 16).map fun i => (x.qNext.get 0 q + i) % 16).find? fun i => !(l.any fun m => m.idx == i)).getD 16
/-- A queue entry for the instruction of the issuing slot, in queue `q` of R397. -/
def State.newCmd (s : State) (q : Nat) (l : List Cmd) (i : Instr) (vals : List Word) (pred : Word) : Cmd :=
  { idx := nextIdx s.my q l, ctx := s.cur.ctx, pc := s.cur.pc, word := if s.cur.slotA then s.cur.w1 else s.cur.w0, slotA := s.cur.slotA,
    sup := s.me.sup, stamp := s.now, instr := i, vals := vals, pred := pred }
/-- The queue remembers the entry that a command took. -/
def Core.tookIdx (x : Core) (q : Nat) (m : Cmd) : Core := { x with qNext := x.qNext.put q ((m.idx + 1) % 16) }
/-- The governing predicate at issue: all lanes for field 0 (R206, R215). -/
def State.govern (s : State) (pg : BitVec 3) : Word := if pg = 0 then BitVec.allOnes 64 else s.srcP pg.toNat
/-- A vector instruction is pushed into the core's vector queue, or its bundle stalls (R205). -/
def State.pushV (s : State) (i : Instr) (vals : List Word) (pg : BitVec 3) : State :=
  if 16 ≤ s.my.vq.length then s.stall
  else
    let m := s.newCmd 0 s.my.vq i vals (s.govern pg)
    s.updMy fun x => { x with vq := x.vq ++ [m] }.tookIdx 0 m

/-! ### Lanes (R215) -/

/-- The lanes that a predicate governs receive the results of a function, with their flags; the others keep their values
(R215). -/
def governed (old : VWord) (w : Nat) (pred : Word) (f : Nat → FRes) : VWord × Flags :=
  let rs := (List.range (512 / w)).map fun j => if pred.getLsbD j then f j else { bits := lane old w j }
  (BitVec.ofNat 512 (ofLanes w (rs.map fun r => r.bits)), rs.foldl (fun a r => a.or r.fl) {})
/-- An integer reduced to `w` bits. -/
def wrapTo (w : Nat) (x : Int) : FRes := { bits := (x % (2 ^ w : Nat)).toNat }
/-- The number of 1 bits of a number below 2^w. -/
def ones (w x : Nat) : Nat := ((List.range w).filter fun i => x.testBit i).length
/-- The number of 0 bits above the highest 1 bit of `w` bits; `w` for zero. -/
def leading (w x : Nat) : Nat := if x = 0 then w else w - 1 - Nat.log2 x

/-- A binary elementwise operation of R216 and R217 on lanes a and b. -/
def lane2 (i : Instr) (t : Ty) (rm : Rm) (a b : Nat) : FRes :=
  let w := t.w
  let f := t.fmt
  let x := f.decode a
  let y := f.decode b
  let p := intOf t a
  let q := intOf t b
  let sh := b % w
  match i with
  | .vadd .. => if t.isFloat then fAdd f rm x y else wrapTo w (p + q)
  | .vsub .. => if t.isFloat then fAdd f rm x y.negate else wrapTo w (p - q)
  | .vmul .. => if t.isFloat then fMul f rm x y else wrapTo w (p * q)
  | .vdiv .. => fDiv f rm x y
  | .vmin .. => if t.isFloat then fMin f false x y else wrapTo w (min p q)
  | .vmax .. => if t.isFloat then fMin f true x y else wrapTo w (max p q)
  | .vand .. => { bits := a &&& b }
  | .vor .. => { bits := a ||| b }
  | .vxor .. => { bits := a ^^^ b }
  | .vshl .. => wrapTo w (p * 2 ^ sh)
  | .vshr .. => wrapTo w (p / 2 ^ sh)
  | .vmulh .. => wrapTo w (p * q / 2 ^ w)
  | _ => { bits := a }
/-- A unary elementwise operation of R216, R217 and R221 on lane a. -/
def lane1 (i : Instr) (t : Ty) (rm : Rm) (a : Nat) : FRes :=
  let w := t.w
  let top := 2 ^ (w - 1)
  match i with
  | .vabs .. => if t.isFloat then { bits := a % top } else wrapTo w (intOf t a).natAbs
  | .vneg .. => if t.isFloat then { bits := if a < top then a + top else a - top } else wrapTo w (-(intOf t a))
  | .vsqrt .. => fSqrt t.fmt rm (t.fmt.decode a)
  | .vpopc .. => { bits := ones w a }
  | .vclz .. => { bits := leading w a }
  | _ => { bits := a }
/-- `vfma` and `vfms` on lanes (R216, R217). -/
def laneFma (sub : Bool) (t : Ty) (rm : Rm) (a b d : Nat) : FRes :=
  if t.isFloat then fFma t.fmt rm sub (t.fmt.decode a) (t.fmt.decode b) (t.fmt.decode d)
  else
    let p := intOf t a * intOf t b
    wrapTo (t.w) (if sub then intOf t d - p else intOf t d + p)
/-- A compare of lanes, and whether it raises NV (R219). -/
def laneCmp (i : Instr) (t : Ty) (a b : Nat) : Bool × Bool :=
  let x := t.fmt.decode a
  let y := t.fmt.decode b
  let nan := x.isNan || y.isNan
  let sig := x.isSig || y.isSig
  let p := intOf t a
  let q := intOf t b
  match i with
  | .vceq .. => if t.isFloat then (!nan && fEq x y, sig) else (p == q, false)
  | .vcne .. => if t.isFloat then (nan || !fEq x y, sig) else (p != q, false)
  | .vclt .. => if t.isFloat then (!nan && fLt x y, nan) else (p < q, false)
  | .vcle .. => if t.isFloat then (!nan && (fLt x y || fEq x y), nan) else (p ≤ q, false)
  | _ => (false, false)
/-- The starting value of a reduction (R221). -/
def reduceFrom (i : Instr) (t : Ty) : Nat :=
  let w := t.w
  let big := if t.isFloat then t.fmt.infinity else if t.signed then 2 ^ (w - 1) - 1 else 2 ^ w - 1
  let small := if t.isFloat then t.fmt.sign true + t.fmt.infinity else if t.signed then 2 ^ (w - 1) else 0
  match i with
  | .vrmin .. => big
  | .vrmax .. => small
  | _ => if t.isFloat then t.fmt.sign true else 0
/-- One step of a reduction: s is operand a (R221). -/
def reduceStep (i : Instr) (t : Ty) (rm : Rm) (x v : Nat) : FRes :=
  combineElem (match i with
    | .vrmin .. => 2
    | .vrmax .. => 3
    | _ => 1) t rm x v

/-! ### Effects on the registers of the context -/

/-- A binary instruction's destination (R215 to R217). -/
def eff2 (i : Instr) (x : Ctx) (pred : Word) (d a b : R5) (t : Ty) (rm : Rm) : Ctx × Flags :=
  let va := x.readV a.toNat
  let vb := x.readV b.toNat
  let (r, fl) := governed (x.readV d.toNat) (t.w) pred fun j => lane2 i t rm (lane va (t.w) j) (lane vb (t.w) j)
  (x.writeV d.toNat r, fl)
/-- A unary instruction's destination. -/
def eff1 (i : Instr) (x : Ctx) (pred : Word) (d a : R5) (t : Ty) (rm : Rm) : Ctx × Flags :=
  let va := x.readV a.toNat
  let (r, fl) := governed (x.readV d.toNat) (t.w) pred fun j => lane1 i t rm (lane va (t.w) j)
  (x.writeV d.toNat r, fl)
/-- `vfma` and `vfms`. -/
def effFma (sub : Bool) (x : Ctx) (pred : Word) (d a b : R5) (t : Ty) (rm : Rm) : Ctx × Flags :=
  let old := x.readV d.toNat
  let va := x.readV a.toNat
  let vb := x.readV b.toNat
  let (r, fl) := governed old (t.w) pred fun j => laneFma sub t rm (lane va (t.w) j) (lane vb (t.w) j) (lane old (t.w) j)
  (x.writeV d.toNat r, fl)
/-- `vcvt` (R218). -/
def effCvt (x : Ctx) (pred : Word) (d a : R5) (td ts : Ty) (rm : Rm) : Ctx × Flags :=
  let old := x.readV d.toNat
  let va := x.readV a.toNat
  let n := 512 / max (ts.w) (td.w)
  let rs := (List.range (512 / td.w)).map fun j =>
    if j < n then
      if pred.getLsbD j then convertElem td ts rm (lane va (ts.w) j) else { bits := lane old (td.w) j }
    else { bits := 0 }
  (x.writeV d.toNat (BitVec.ofNat 512 (ofLanes (td.w) (rs.map fun r => r.bits))), rs.foldl (fun a r => a.or r.fl) {})
/-- A compare (R219). -/
def effCmp (i : Instr) (x : Ctx) (pred : Word) (d a b : R5) (t : Ty) : Ctx × Flags :=
  let va := x.readV a.toNat
  let vb := x.readV b.toNat
  let rs := (List.range (512 / t.w)).map fun j => if pred.getLsbD j then laneCmp i t (lane va (t.w) j) (lane vb (t.w) j) else (false, false)
  (x.writeP d.toNat (BitVec.ofNat 64 (ofLanes 1 (rs.map fun r => r.1.toNat))), { nv := rs.any fun r => r.2 })
/-- A reduction (R221). -/
def effReduce (i : Instr) (x : Ctx) (pred : Word) (d a : R5) (t : Ty) (rm : Rm) : Ctx × Flags :=
  let va := x.readV a.toNat
  let (r, fl) := (List.range (512 / t.w)).foldl (fun (z, fl) j =>
    if pred.getLsbD j then
      let r := reduceStep i t rm z (lane va (t.w) j)
      (r.bits, fl.or r.fl)
    else (z, fl)) (reduceFrom i t, ({} : Flags))
  (x.writeV d.toNat (BitVec.ofNat 512 (r % 2 ^ t.w)), fl)
/-- Governed lanes copied from a function of the lane number (R222). -/
def effCopy (x : Ctx) (pred : Word) (d : R5) (w : Nat) (f : Nat → Nat) : Ctx × Flags :=
  let (r, _) := governed (x.readV d.toNat) w pred fun j => { bits := f j }
  (x.writeV d.toNat r, {})

/-- What a queued vector instruction does to the registers of its context, with its flags (R216 to R222). The general registers
it read at issue are `vals`. Gathers, scatters, accumulator rows and intersections are not here. -/
def vecEffect (i : Instr) (x : Ctx) (pred : Word) (vals : List Word) (mode : Rm) : Ctx × Flags :=
  let g := fun (n : Nat) => (vals[n]?).getD 0
  match i with
  | .vadd d a b _ t _ | .vsub d a b _ t _ | .vmul d a b _ t _ | .vdiv d a b _ t _ => eff2 i x pred d a b t mode
  | .vmin d a b _ t | .vmax d a b _ t | .vand d a b _ t | .vor d a b _ t | .vxor d a b _ t | .vshl d a b _ t | .vshr d a b _ t
  | .vmulh d a b _ t => eff2 i x pred d a b t mode
  | .vabs d a _ t | .vneg d a _ t | .vpopc d a _ t | .vclz d a _ t | .vmov d a _ t => eff1 i x pred d a t mode
  | .vsqrt d a _ t _ => eff1 i x pred d a t mode
  | .vfma d a b _ t _ => effFma false x pred d a b t mode
  | .vfms d a b _ t _ => effFma true x pred d a b t mode
  | .vcvt d a ts _ td _ => effCvt x pred d a td ts mode
  | .vceq d a b _ t | .vcne d a b _ t | .vclt d a b _ t | .vcle d a b _ t => effCmp i x pred d a b t
  | .vsel d a b _ t =>
    effCopy x (BitVec.allOnes 64) d (t.w) fun j => lane (x.readV (if pred.getLsbD j then a else b).toNat) (t.w) j
  | .vrsum d a _ t _ => effReduce i x pred d a t mode
  | .vrmin d a _ t | .vrmax d a _ t => effReduce i x pred d a t mode
  | .vperm d a b _ t =>
    effCopy x pred d (t.w) fun j => lane (x.readV a.toNat) (t.w) (lane (x.readV b.toNat) (t.w) j % (512 / t.w))
  | .vbcast d _ _ t => effCopy x pred d (t.w) fun _ => (g 0).toNat % 2 ^ t.w
  | .vslide d a _ _ t =>
    let k := (g 1).toInt
    effCopy x pred d (t.w) fun j =>
      if 0 ≤ (j : Int) + k ∧ (j : Int) + k < (512 / t.w : Nat) then lane (x.readV a.toNat) (t.w) ((j : Int) + k).toNat else 0
  | .vextg d a _ t =>
    let v := lane (x.readV a.toNat) (t.w) ((g 1).toNat % (512 / t.w))
    (x.writeG d.toNat (if t.signed then BitVec.ofInt 64 (toSigned (t.w) v) else BitVec.ofNat 64 v), {})
  | .vinsg d _ _ t =>
    let j := (g 1).toNat % (512 / t.w)
    effCopy x (BitVec.allOnes 64) d (t.w) fun i => if i = j then (g 0).toNat % 2 ^ t.w else lane (x.readV d.toNat) (t.w) i
  | .vmovi d imm => effCopy x (BitVec.allOnes 64) d 32 fun _ => (sx imm).toNat % 2 ^ 32
  | _ => (x, {})

/-! ### Issue -/

/-- `vadd` (R205, R216, R217). -/
def execVadd (d a b : R5) (pg : BitVec 3) (t : Ty) (rm : Rm) (s : State) : Host.Outcome State Fault Refusal :=
  .next (s.pushV (.vadd d a b pg t rm) [] pg)
/-- `vsub` (R205, R216, R217). -/
def execVsub (d a b : R5) (pg : BitVec 3) (t : Ty) (rm : Rm) (s : State) : Host.Outcome State Fault Refusal :=
  .next (s.pushV (.vsub d a b pg t rm) [] pg)
/-- `vmul` (R205, R216, R217). -/
def execVmul (d a b : R5) (pg : BitVec 3) (t : Ty) (rm : Rm) (s : State) : Host.Outcome State Fault Refusal :=
  .next (s.pushV (.vmul d a b pg t rm) [] pg)
/-- `vdiv` (R205, R217). -/
def execVdiv (d a b : R5) (pg : BitVec 3) (t : Ty) (rm : Rm) (s : State) : Host.Outcome State Fault Refusal :=
  .next (s.pushV (.vdiv d a b pg t rm) [] pg)
/-- `vmin` (R205, R216, R217). -/
def execVmin (d a b : R5) (pg : BitVec 3) (t : Ty) (s : State) : Host.Outcome State Fault Refusal := .next (s.pushV (.vmin d a b pg t) [] pg)
/-- `vmax` (R205, R216, R217). -/
def execVmax (d a b : R5) (pg : BitVec 3) (t : Ty) (s : State) : Host.Outcome State Fault Refusal := .next (s.pushV (.vmax d a b pg t) [] pg)
/-- `vabs` (R205, R216, R217). -/
def execVabs (d a : R5) (pg : BitVec 3) (t : Ty) (s : State) : Host.Outcome State Fault Refusal := .next (s.pushV (.vabs d a pg t) [] pg)
/-- `vneg` (R205, R216, R217). -/
def execVneg (d a : R5) (pg : BitVec 3) (t : Ty) (s : State) : Host.Outcome State Fault Refusal := .next (s.pushV (.vneg d a pg t) [] pg)
/-- `vfma` (R205, R216, R217). -/
def execVfma (d a b : R5) (pg : BitVec 3) (t : Ty) (rm : Rm) (s : State) : Host.Outcome State Fault Refusal :=
  .next (s.pushV (.vfma d a b pg t rm) [] pg)
/-- `vfms` (R205, R216, R217). -/
def execVfms (d a b : R5) (pg : BitVec 3) (t : Ty) (rm : Rm) (s : State) : Host.Outcome State Fault Refusal :=
  .next (s.pushV (.vfms d a b pg t rm) [] pg)
/-- `vsqrt` (R205, R217). -/
def execVsqrt (d a : R5) (pg : BitVec 3) (t : Ty) (rm : Rm) (s : State) : Host.Outcome State Fault Refusal :=
  .next (s.pushV (.vsqrt d a pg t rm) [] pg)
/-- `vand` (R205, R216). -/
def execVand (d a b : R5) (pg : BitVec 3) (t : Ty) (s : State) : Host.Outcome State Fault Refusal := .next (s.pushV (.vand d a b pg t) [] pg)
/-- `vor` (R205, R216). -/
def execVor (d a b : R5) (pg : BitVec 3) (t : Ty) (s : State) : Host.Outcome State Fault Refusal := .next (s.pushV (.vor d a b pg t) [] pg)
/-- `vxor` (R205, R216). -/
def execVxor (d a b : R5) (pg : BitVec 3) (t : Ty) (s : State) : Host.Outcome State Fault Refusal := .next (s.pushV (.vxor d a b pg t) [] pg)
/-- `vshl` (R205, R216). -/
def execVshl (d a b : R5) (pg : BitVec 3) (t : Ty) (s : State) : Host.Outcome State Fault Refusal := .next (s.pushV (.vshl d a b pg t) [] pg)
/-- `vshr` (R205, R216). -/
def execVshr (d a b : R5) (pg : BitVec 3) (t : Ty) (s : State) : Host.Outcome State Fault Refusal := .next (s.pushV (.vshr d a b pg t) [] pg)
/-- `vcvt` (R205, R218). -/
def execVcvt (d a : R5) (src : Ty) (pg : BitVec 3) (t : Ty) (rm : Rm) (s : State) : Host.Outcome State Fault Refusal :=
  .next (s.pushV (.vcvt d a src pg t rm) [] pg)
/-- `vceq` (R205, R219). -/
def execVceq (d a b : R5) (pg : BitVec 3) (t : Ty) (s : State) : Host.Outcome State Fault Refusal := .next (s.pushV (.vceq d a b pg t) [] pg)
/-- `vcne` (R205, R219). -/
def execVcne (d a b : R5) (pg : BitVec 3) (t : Ty) (s : State) : Host.Outcome State Fault Refusal := .next (s.pushV (.vcne d a b pg t) [] pg)
/-- `vclt` (R205, R219). -/
def execVclt (d a b : R5) (pg : BitVec 3) (t : Ty) (s : State) : Host.Outcome State Fault Refusal := .next (s.pushV (.vclt d a b pg t) [] pg)
/-- `vcle` (R205, R219). -/
def execVcle (d a b : R5) (pg : BitVec 3) (t : Ty) (s : State) : Host.Outcome State Fault Refusal := .next (s.pushV (.vcle d a b pg t) [] pg)
/-- `vsel` (R205, R221). -/
def execVsel (d a b : R5) (pg : BitVec 3) (t : Ty) (s : State) : Host.Outcome State Fault Refusal := .next (s.pushV (.vsel d a b pg t) [] pg)
/-- `vrsum` (R205, R221). -/
def execVrsum (d a : R5) (pg : BitVec 3) (t : Ty) (rm : Rm) (s : State) : Host.Outcome State Fault Refusal :=
  .next (s.pushV (.vrsum d a pg t rm) [] pg)
/-- `vrmin` (R205, R221). -/
def execVrmin (d a : R5) (pg : BitVec 3) (t : Ty) (s : State) : Host.Outcome State Fault Refusal := .next (s.pushV (.vrmin d a pg t) [] pg)
/-- `vrmax` (R205, R221). -/
def execVrmax (d a : R5) (pg : BitVec 3) (t : Ty) (s : State) : Host.Outcome State Fault Refusal := .next (s.pushV (.vrmax d a pg t) [] pg)
/-- `vperm` (R205, R222). -/
def execVperm (d a b : R5) (pg : BitVec 3) (t : Ty) (s : State) : Host.Outcome State Fault Refusal := .next (s.pushV (.vperm d a b pg t) [] pg)
/-- `vbcast` (R205, R222). -/
def execVbcast (d a : R5) (pg : BitVec 3) (t : Ty) (s : State) : Host.Outcome State Fault Refusal :=
  .next (s.pushV (.vbcast d a pg t) [s.srcG a] pg)
/-- `vslide` (R205, R222). -/
def execVslide (d a b : R5) (pg : BitVec 3) (t : Ty) (s : State) : Host.Outcome State Fault Refusal :=
  .next (s.pushV (.vslide d a b pg t) [0, s.srcG b] pg)
/-- `vextg` (R205, R222). -/
def execVextg (d a b : R5) (t : Ty) (s : State) : Host.Outcome State Fault Refusal := .next (s.pushV (.vextg d a b t) [0, s.srcG b] 0)
/-- `vinsg` (R205, R222). -/
def execVinsg (d a b : R5) (t : Ty) (s : State) : Host.Outcome State Fault Refusal :=
  .next (s.pushV (.vinsg d a b t) [s.srcG a, s.srcG b] 0)
/-- `vmov` (R205, R221). -/
def execVmov (d a : R5) (pg : BitVec 3) (t : Ty) (s : State) : Host.Outcome State Fault Refusal := .next (s.pushV (.vmov d a pg t) [] pg)
/-- `vmovi` (R205, R221). -/
def execVmovi (d : R5) (imm : BitVec 15) (s : State) : Host.Outcome State Fault Refusal := .next (s.pushV (.vmovi d imm) [] 0)
/-- `vpopc` (R205, R216). -/
def execVpopc (d a : R5) (pg : BitVec 3) (t : Ty) (s : State) : Host.Outcome State Fault Refusal := .next (s.pushV (.vpopc d a pg t) [] pg)
/-- `vclz` (R205, R216). -/
def execVclz (d a : R5) (pg : BitVec 3) (t : Ty) (s : State) : Host.Outcome State Fault Refusal := .next (s.pushV (.vclz d a pg t) [] pg)
/-- `vmulh` (R205, R216). -/
def execVmulh (d a b : R5) (pg : BitVec 3) (t : Ty) (s : State) : Host.Outcome State Fault Refusal := .next (s.pushV (.vmulh d a b pg t) [] pg)

/-- A gather, scatter or intersection, which a Gleaner body checks (R424). -/
def State.pushVMem (s : State) (i : Instr) (vals : List Word) (pg : BitVec 3) : State :=
  match glGate s true with
  | some c => s.trap c
  | none => s.pushV i vals pg
/-- `vgat` (R205, R223). -/
def execVgat (d a b : R5) (pg : BitVec 3) (t : Ty) (s : State) : Host.Outcome State Fault Refusal :=
  .next (s.pushVMem (.vgat d a b pg t) [s.srcG a] pg)
/-- `vsct` (R205, R223). -/
def execVsct (d a b : R5) (pg : BitVec 3) (t : Ty) (s : State) : Host.Outcome State Fault Refusal :=
  .next (s.pushVMem (.vsct d a b pg t) [s.srcG a] pg)
/-- `sisect` (R229): the operands are pa, na, pb, nb, c and po (R397). In a repeat body g(a+1), g(b+1) and g(d+1) follow the renamed
field (R115; DESIGN CHOICE, notes/assumptions/54.md). -/
def execSisect (d a b : R5) (t : Ty) (opt : Bool) (s : State) : Host.Outcome State Fault Refusal :=
  let g := fun (r : Nat) => s.atIssue.readG r
  let w := t.w / 8
  let pa := g a.toNat
  let pb := g b.toNat
  let po := if opt then g (d.toNat + 1) else 0
  .next (match glGate s true with
    | some c => s.trap c
    | none =>
      if pa.toNat % w ≠ 0 ∨ pb.toNat % w ≠ 0 ∨ (opt ∧ po.toNat % w ≠ 0) then s.trap .align
      else s.pushV (.sisect d a b t opt) [pa, g (a.toNat + 1), pb, g (b.toNat + 1), g d.toNat, po] 0)

/-- A faulted command is no longer marked (R399). -/
def Cmd.again (m : Cmd) : Cmd := { m with flt := none, faddr := 0, info := 0 }
/-- The operand type of FMTA or FMTB. -/
def fmtTy (w : Word) : Ty := Ty.ofCode (Bits w 3 0)
/-- The tiles that a Mill command owns: of a command that has not started, those of the class that FMTA and FMTB name as they stand,
two for each block in the 64-bit class (R249, R251, R253; DEDUCED, notes/assumptions/40.md). -/
def ownCount (x : Core) (o : Owner) : Nat :=
  let waits := x.mq.any fun m => m.stamp == o.stamp && !m.started && (match m.instr with
    | .aclr .. => false
    | _ => true)
  if waits ∧ fmtTy x.fmta = .f64 ∧ fmtTy x.fmtb = .f64 then 2 * o.count else o.count
/-- A Mill command of the core owns a tile (R253). -/
def Core.ownsTile (x : Core) (t : Nat) : Bool := x.owners.any fun o => o.first ≤ t && t < o.first + ownCount x o
/-- `aget`: ACC_BUSY while a Mill command owns the tile (R226, R227). -/
def execAget (d a : R5) (row : BitVec 4) (s : State) : Host.Outcome State Fault Refusal :=
  .next (if s.my.ownsTile a.toNat then s.trap .accBusy else s.pushV (.aget d a row) [] 0)
/-- `aput`: ACC_BUSY while a Mill command owns the tile (R226, R227). -/
def execAput (d a : R5) (row : BitVec 4) (s : State) : Host.Outcome State Fault Refusal :=
  .next (if s.my.ownsTile d.toNat then s.trap .accBusy else s.pushV (.aput d a row) [] 0)

/-! ### Predicates (R220) -/

/-- `pand` (R220). -/
def execPand (d a b : R5) (s : State) : Host.Outcome State Fault Refusal := .next (s.setP d (s.srcP a.toNat &&& s.srcP b.toNat))
/-- `por` (R220). -/
def execPor (d a b : R5) (s : State) : Host.Outcome State Fault Refusal := .next (s.setP d (s.srcP a.toNat ||| s.srcP b.toNat))
/-- `pxor` (R220). -/
def execPxor (d a b : R5) (s : State) : Host.Outcome State Fault Refusal := .next (s.setP d (s.srcP a.toNat ^^^ s.srcP b.toNat))
/-- `pnot` (R220). -/
def execPnot (d a : R5) (s : State) : Host.Outcome State Fault Refusal := .next (s.setP d (~~~ s.srcP a.toNat))
/-- `pcnt` (R220). -/
def execPcnt (d a : R5) (s : State) : Host.Outcome State Fault Refusal :=
  .next (s.setG d (BitVec.ofNat 64 (ones 64 (s.srcP a.toNat).toNat)))

/-! ### Starting on a lane group (R207, R209) -/

/-- The vector registers that an instruction names. -/
def vNames (i : Instr) : List Nat := (i.operands.filter fun o => o.cls == .v).map fun o => o.num
/-- The instruction performs memory accesses in order. -/
def vMem : Instr → Bool
  | .vgat .. | .vsct .. | .sisect .. => true
  | _ => false
/-- The tile that `aget` or `aput` names. -/
def vTile : Instr → Option Nat
  | .aget _ a _ => some a.toNat
  | .aput d _ _ => some d.toNat
  | _ => none
/-- A load has yet to write a vector source of the instruction (R206). -/
def sourcePending (x : Core) (m : Cmd) : Bool :=
  let src := (m.instr.operands.filter fun o => o.cls == .v && o.reads).map fun o => o.num
  x.ops.any fun e => e.2.ctx == m.ctx && e.2.stamp < m.stamp && (e.2.instr.destinations.any fun d => d.1 == .v && src.contains d.2)
/-- The vector instruction stores to memory (R223, R229). -/
def vStores : Instr → Bool
  | .vsct .. | .sisect .. => true
  | _ => false
/-- The accesses of a vector instruction to memory wait for earlier ones of its context (R178, R185, R191). -/
def vMemWaits (x : Core) (m : Cmd) : Bool := if vStores m.instr then x.cmdWaits m else vMem m.instr && x.cmdReadWaits m
/-- The head of a core's vector queue, when it may start: no fault holds the queue, and its accesses to memory need not wait
(R207, R233). -/
def vecHead (x : Core) : Option Cmd :=
  if (Tab.find x.holds 0).isSome || x.vq.any (fun m => m.flt.isSome) then none
  else
    match x.vq.find? fun m => !m.started with
    | none => none
    | some m =>
      let before := x.vq.takeWhile fun e => e != m
      let clash := before.any fun e =>
        (e.ctx == m.ctx && (vNames e.instr).any fun v => (vNames m.instr).contains v) || (vMem e.instr && vMem m.instr) ||
          ((vTile m.instr).isSome && vTile e.instr == vTile m.instr)
      if clash || sourcePending x m || vMemWaits x m then none else some m

/-- A word of a row of a tile (R225, R251). -/
def Core.tileRow (x : Core) (t r : Nat) : VWord := x.tiles.get 0 (16 * t + r)
/-- Eight doublewords of a vector value. -/
def dwords (v : VWord) : List Word := (List.range 8).map fun j => v.extractLsb' (64 * j) 64
/-- The vector value of eight doublewords. -/
def ofDwords (l : List Word) : VWord := BitVec.ofNat 512 (ofLanes 64 (l.map fun w => w.toNat))

/-- The instruction reads what it reads at its start: rounding and accumulator rows (R206, R208). -/
def vecStart (x : Core) (m : Cmd) (g : Nat) : Cmd :=
  let rm := fun (r : Rm) => r.resolve x.mstat.rm
  let mode := match m.instr with
    | .vadd _ _ _ _ _ r | .vsub _ _ _ _ _ r | .vmul _ _ _ _ _ r | .vdiv _ _ _ _ _ r | .vfma _ _ _ _ _ r | .vfms _ _ _ _ _ r
    | .vcvt _ _ _ _ _ r => rm r
    | .vsqrt _ _ _ _ r | .vrsum _ _ _ _ r => rm r
    | _ => .rne
  let vals := match m.instr with
    | .aget _ a row => dwords (x.tileRow a.toNat row.toNat)
    | _ => m.vals
  { m with started := true, group := g, mill := { m.mill with rm := mode }, vals := vals }

/-- The lane groups that hold an instruction, with the logical core of each. -/
def groupsHeld (s : State) (cl : Nat) : List (Nat × Nat) :=
  (List.range 8).flatMap fun c => ((s.core (cl * 8 + c)).vq.filter fun m => m.started).map fun m => (m.group, c)

/-- The tries of R209 for one free lane group: cores that have started something this cycle are in `used`. -/
def grant (cl g : Nat) : Nat → List Nat → State → List Nat × State
  | 0, used, s => (used, s)
  | fuel + 1, used, s =>
    let x := s.cluster cl
    let c := x.arbP
    let k := cl * 8 + c
    let d := x.arbD.get 0 c
    match (if 0 < d ∧ !used.contains c then vecHead (s.core k) else none) with
    | some m =>
      (c :: used, s.updCore k fun y => { y with vq := y.vq.map fun e => if e = m then vecStart y m g else e })
    | none =>
      let s := s.updCluster cl fun x =>
        let ds := if (s.core k).vq.isEmpty then x.arbD.put c (min d 0) else x.arbD
        let p := (c + 1) % 8
        let w : Int := 16 * (x.vshare.get 1 p)
        { x with arbP := p, arbD := ds.put p (min (ds.get 0 p + w) w) }
      grant cl g fuel used s

/-- VECTOR_START: one cycle of the lane-group arbiter (R209). -/
def execVectorStart (cl : Nat) (s : State) : Host.Outcome State Fault Refusal :=
  .next (if s.clusterStill cl ∨ 384 ≤ cl then s
    else
      let busy := (groupsHeld s cl).map fun g => g.1
      let free := (List.range 8).filter fun g => !busy.contains g
      let (_, s) := free.foldl (fun (used, s) g => grant cl g 8 used s) ([], s)
      (groupsHeld s cl).foldl (fun s h =>
        s.updCluster cl fun x => { x with arbD := x.arbD.upd 0 h.2 fun d => d - 1 }) s)

/-! ### Completion (R208, R223, R229, R233) -/

/-- A queued vector instruction is marked faulted: its context is told, and the queue is held (R233). -/
def vecFault (s : State) (k : Nat) (m : Cmd) (c : Cause) (va : Nat) (info : BitVec 32) : State :=
  let s := s.updCore k fun x =>
    { x with vq := x.vq.map fun e =>
               if e.idx = m.idx then { m with started := false, flt := some c, faddr := BitVec.ofNat 64 va, info := info } else e
             holds := x.holds.put 0 m.ctx }
  s.report k m.ctx { cause := c, info := info, entry := some (64 + m.idx), stamp := m.stamp }
/-- A queued vector instruction is complete and leaves the queue. -/
def vecRetire (s : State) (k : Nat) (m : Cmd) : State := s.updCore k fun x => { x with vq := x.vq.filter fun e => e.idx != m.idx }

/-- The addresses of the elements of a gather or scatter, with their lanes (R223). -/
def elems (x : Ctx) (m : Cmd) (b : R5) (t : Ty) : List (Nat × Nat) :=
  (((List.range (512 / t.w)).filter fun j => m.pred.getLsbD j)).map fun j =>
    (j, (((m.vals[0]?).getD 0).toNat + lane (x.readV b.toNat) (t.w) j * (t.w / 8)) % 2 ^ 64)
/-- The first element that fails its check: lane, cause, address, level (R223); a guarded ring's filled slot too (R245), and a core whose
closed bell refuses it, which stands for the level (R334). -/
def elemFault (s : State) (k : Nat) (sup write : Bool) (n : Nat) : List (Nat × Nat) → Option (Nat × Cause × Nat × Nat)
  | [] => none
  | (j, ea) :: t =>
    match engCheck s k sup write ea n with
    | .error (c, va, l) => some (j, c, va, l)
    | .ok ps =>
      if write && ringGuarded s k ps then some (j, .ringOwned, ea, 0)
      else
        match (if write then bellBars s k ps else none) with
        | some b => some (j, .doneTarget, ea, b)
        | none => elemFault s k sup write n t

/-- The values of the elements of a gather, or the lane whose read failed, with its cause, address and level (R413, R436). -/
def gatherAll (s : State) (k : Nat) (sup : Bool) (n : Nat) :
    List (Nat × Nat) → Except (Nat × Cause × Nat × Nat) (List (Nat × Nat) × State)
  | [] => .ok ([], s)
  | (j, ea) :: t =>
    match engRead s k sup ea n with
    | .error e => .error (j, e)
    | .ok (v, s) =>
      match gatherAll s k sup n t with
      | .error e => .error e
      | .ok (l, s) => .ok ((j, v) :: l, s)

/-- `vgat` as it is performed (R223, R224). -/
def vgatEffect (s : State) (k : Nat) (m : Cmd) (d b : R5) (t : Ty) : State :=
  let x := s.ctx k m.ctx
  let es := elems x m b t
  match elemFault s k m.sup false (t.w / 8) es with
  | some (j, c, va, l) => vecFault s k m c va (accessInfo c false l j)
  | none =>
    match gatherAll s k m.sup (t.w / 8) es with
    | .error (j, c, va, l) => vecFault s k m c va (accessInfo c false l j)
    | .ok (vs, s) =>
      let old := x.readV d.toNat
      let r := mkLanes (t.w) (512 / t.w) fun j => Tab.get vs (lane old (t.w) j) j
      vecRetire (s.updCtx k m.ctx fun x => x.writeV d.toNat r) k m
/-- `vsct` as it is performed (R223, R224). -/
def vsctEffect (s : State) (k : Nat) (m : Cmd) (d b : R5) (t : Ty) : State :=
  let x := s.ctx k m.ctx
  let es := elems x m b t
  match elemFault s k m.sup true (t.w / 8) es with
  | some (j, c, va, l) => vecFault s k m c va (accessInfo c true l j)
  | none =>
    let v := x.readV d.toNat
    vecRetire (es.foldl (fun s (j, ea) =>
      match engWrite s k m.sup ea (t.w / 8) (lane v (t.w) j) with
      | .ok s => s
      | .error _ => s) s) k m

/-- The registers of an intersection: pa, na, pb, nb, c, po (R229). -/
structure Merge where
  pa : Nat
  na : Nat
  pb : Nat
  nb : Nat
  c : Nat
  po : Nat
  deriving DecidableEq, Repr
/-- One step of the merge: none at its end, the progress, or the fault it met (R229 to R231). -/
def mergeStep (s : State) (k : Nat) (sup opt : Bool) (w : Nat) (p : Merge) : Option (Except (Cause × Nat × Nat × Bool) (Merge × State)) :=
  if p.na = 0 ∨ p.nb = 0 then none
  else
    some (match engRead s k sup p.pa w with
      | .error (c, v, l) => .error (c, v, l, false)
      | .ok (x, s) =>
        match engRead s k sup p.pb w with
        | .error (c, v, l) => .error (c, v, l, false)
        | .ok (y, s) =>
          let up := fun (a : Nat) => (a + w) % 2 ^ 64
          if x < y then .ok ({ p with pa := up p.pa, na := p.na - 1 }, s)
          else if y < x then .ok ({ p with pb := up p.pb, nb := p.nb - 1 }, s)
          else
            let q := { p with pa := up p.pa, na := p.na - 1, pb := up p.pb, nb := p.nb - 1, c := (p.c + 1) % 2 ^ 64,
                              po := if opt then up p.po else p.po }
            if opt then
              match engWrite s k sup p.po w x with
              | .error (c, v, l) => .error (c, v, l, true)
              | .ok s => .ok (q, s)
            else .ok (q, s))
/-- The merge to its end, or to the step that faults (R229, R231). -/
def mergeAll (k : Nat) (sup opt : Bool) (w : Nat) : Nat → Merge → State → Merge × State × Option (Cause × Nat × Nat × Bool)
  | 0, p, s => (p, s, none)
  | fuel + 1, p, s =>
    match mergeStep s k sup opt w p with
    | none => (p, s, none)
    | some (.error e) => (p, s, some e)
    | some (.ok (q, s)) => mergeAll k sup opt w fuel q s
/-- The registers of an intersection as a queue entry carries them. -/
def mergeOf (vals : List Word) : Merge :=
  let g := fun (n : Nat) => ((vals[n]?).getD 0).toNat
  ⟨g 0, g 1, g 2, g 3, g 4, g 5⟩
/-- The same as values. -/
def Merge.vals (p : Merge) : List Word := [p.pa, p.na, p.pb, p.nb, p.c, p.po].map fun n => BitVec.ofNat 64 n
/-- The general registers that an intersection writes (R229). -/
def mergeRegs (x : Ctx) (d a b : R5) (opt : Bool) (p : Merge) : Ctx :=
  let w := fun (x : Ctx) (r v : Nat) => x.writeG r (BitVec.ofNat 64 v)
  let x := w (w (w (w (w x a.toNat p.pa) (a.toNat + 1) p.na) b.toNat p.pb) (b.toNat + 1) p.nb) d.toNat p.c
  if opt then w x (d.toNat + 1) p.po else x
/-- At most `n` steps of a `sisect`, with its progress in the registers: the command with the progress, and whether it has faulted
(R229 to R231). -/
def sisectSteps (s : State) (k : Nat) (m : Cmd) (d a b : R5) (t : Ty) (opt : Bool) (n : Nat) : Bool × Cmd × State :=
  let (q, s, e) := mergeAll k m.sup opt (t.w / 8) n (mergeOf m.vals) s
  let s := s.updCtx k m.ctx fun x => mergeRegs x d a b opt q
  let m := { m with vals := q.vals }
  match e with
  | none => (false, m, s)
  | some (c, va, l, wr) => (true, m, vecFault s k m c va (accessInfo c wr l 0))
/-- The steps that a `sisect` has at most. -/
def Cmd.mergeSteps (m : Cmd) : Nat := (mergeOf m.vals).na + (mergeOf m.vals).nb
/-- `sisect` as it is performed (R229 to R231). -/
def sisectEffect (s : State) (k : Nat) (m : Cmd) (d a b : R5) (t : Ty) (opt : Bool) : State :=
  match sisectSteps s k m d a b t opt m.mergeSteps with
  | (true, _, s) => s
  | (false, m, s) => vecRetire s k m
/-- A stop meets a started `sisect`: it stops at a step boundary, which the manual leaves open, writes its progress, and stays at the
head of its queue (R234; DEDUCED, notes/assumptions/45.md). -/
def sisectStop (s : State) (k : Nat) (m : Cmd) : State :=
  match m.instr with
  | .sisect d a b t opt =>
    match sisectSteps s.spend k m d a b t opt (Config.pick s.freeCtr % (m.mergeSteps + 1)) with
    | (true, _, s) => s
    | (false, m, s) => s.updCore k fun x => { x with vq := x.vq.map fun e => if e.idx = m.idx then { m with started := false } else e }
  | _ => s

/-- The row of a tile is written. -/
def Core.putRow (x : Core) (t r : Nat) (v : VWord) : Core := { x with tiles := x.tiles.put (16 * t + r) v }

/-- A started vector instruction is performed and completes (R206, R208). -/
def vecComplete (s : State) (k : Nat) (m : Cmd) : State :=
  match m.instr with
  | .vgat d _ b _ t => vgatEffect s k m d b t
  | .vsct d _ b _ t => vsctEffect s k m d b t
  | .sisect d a b t opt => sisectEffect s k m d a b t opt
  | .aget d a _ =>
    let s := s.updCtx k m.ctx fun x => x.writeV d.toNat (ofDwords m.vals)
    vecRetire (if (s.core k).mstat.pmask.contains a.toNat then
      s.updCore k fun x => { x with mstat := { x.mstat with poison := true } } else s) k m
  | .aput d a row => vecRetire (s.updCore k fun x => x.putRow d.toNat row.toNat ((s.ctx k m.ctx).readV a.toNat)) k m
  | i =>
    let (x, fl) := vecEffect i (s.ctx k m.ctx) m.pred m.vals m.mill.rm
    vecRetire ((s.updCtx k m.ctx fun _ => x).orFlags k fl) k m

/-- VECTOR_COMPLETE: the instruction that a lane group holds completes; one that accesses memory once its messages may pass (R208, R351). -/
def execVectorComplete (cl g : Nat) (s : State) : Host.Outcome State Fault Refusal :=
  .next (if s.tileStopped cl then s
    else
      match (coresOf cl).findSome? fun k => ((s.core k).vq.find? fun m => m.started && m.group == g).map fun m => (k, m) with
      | some (k, m) => s.ifInTurn (vecComplete s k m)
      | none => s)

/-- A faulted vector instruction is performed again at once by `eret`, with the operands of its log entry (R233, R400). -/
def vecReplay (s : State) (k : Nat) (m : Cmd) : State := vecComplete s k m.again
/-- A faulted vector instruction is discarded by `eret`: it retires, with the progress of an intersection kept (R400). -/
def vecDiscard (s : State) (k : Nat) (m : Cmd) : State := vecRetire s k m

end Sys2Proof.Machine
end

