-- ==== Sys2Proof/Machine/Mill.lean ====
section
/-! DEFINITION. The Mill: rings, shapes, batches, and the dense and triangular products (R236 to R265, R83 to R91). -/

namespace Sys2Proof.Machine

/-! ### Arithmetic of Mill sums (R83 to R91) -/

/-- The class of an operation (R83). -/
inductive MClass where
  | c64 | c32 | c16 | c8 | int
  deriving DecidableEq, Repr
/-- The class of the types that FMTA and FMTB name, if the Mill accepts the pair (R83, R249, R250). -/
def classOf (a b : Ty) : Option MClass :=
  let h := fun (t : Ty) => t == .bf16 || t == .f16
  let e := fun (t : Ty) => t == .e4m3 || t == .e5m2 || t == .lut4
  if a = .f64 ∧ b = .f64 then some .c64
  else if a = .f32 ∧ b = .f32 then some .c32
  else if h a && h b then some .c16
  else if e a && e b then some .c8
  else if a = .i8 ∧ b = .i8 then some .int
  else none
/-- The accumulator format of a floating class (R83). -/
def MClass.acc : MClass → Fmt
  | .c64 => Ty.f64.fmt
  | .c32 | .c16 | .c8 | .int => Ty.f32.fmt
/-- The positions that one Round takes together (R84). -/
def MClass.group : MClass → Nat
  | .c64 => 1
  | .c32 => 2
  | .c16 => 16
  | .c8 | .int => 32

/-- The value of an operand element: a lut4 code through its codebook of bf16 (R70, R72, R75). -/
def elemVal (t : Ty) (book : List Nat) (x : Nat) : FVal :=
  match t with
  | .lut4 => Ty.bf16.fmt.decode (book.getD (x % 16) 0)
  | .i8 =>
    let v := toSigned 8 x
    .fin (v < 0) v.natAbs 0
  | .i16 | .i32 | .i64 | .n8 | .n16 | .n32 | .n64 | .f64 | .f32 | .bf16 | .f16 | .e4m3 | .e5m2 | .res15 => t.fmt.decode x
/-- A value times its block scale: exact; the NaN scale makes it a quiet NaN (R74). -/
def scaled (e : Option Nat) (v : FVal) : FVal :=
  match e with
  | none => v
  | some e =>
    if e = 255 then .nan false false 0 1
    else
      match v with
      | .fin n m x => .fin n m (x + (e : Int) - 127)
      | .inf n => .inf n
      | .nan n s f b => .nan n s f b

/-- The infinities among an accumulator and its terms: their signs. A term with a NaN is none (R85). -/
def infSigns (c : FVal) (ts : List (FVal × FVal)) : List Bool :=
  let one := fun (v : FVal) => match v with
    | .inf n => [n]
    | .fin .. | .nan .. => []
  one c ++ ts.flatMap fun t =>
    match t.1, t.2 with
    | .nan .., _ | _, .nan .. => []
    | .inf n, b => [n != b.neg]
    | a, .inf n => [n != a.neg]
    | .fin .., .fin .. => []
/-- One Round of a Mill sum: c and the products of the pairs, rounded once, with the special values of R85 (R84 to R86). -/
def millRound (f : Fmt) (rm : Rm) (c : FVal) (ts : List (FVal × FVal)) : FRes :=
  let nan := c.isNan || ts.any fun t => t.1.isNan || t.2.isNan
  let sig := c.isSig || ts.any fun t => t.1.isSig || t.2.isSig
  let isInf := fun (v : FVal) => match v with
    | .inf _ => true
    | .fin .. | .nan .. => false
  let zeroInf := ts.any fun t => (t.1.isZero && isInf t.2) || (isInf t.1 && t.2.isZero)
  let infs := infSigns c ts
  let both := infs.contains true && infs.contains false
  if nan || zeroInf || both then { bits := f.nan, fl := { nv := sig || zeroInf || both } }
  else
    match infs with
    | n :: _ => { bits := f.sign n + f.infinity }
    | [] =>
      let term := fun (v w : FVal) => match v, w with
        | .fin n m e, .fin n' m' e' => ((n != n', m * m', e + e') : Term)
        | _, _ => (false, 0, 0)
      let c' : Term := match c with
        | .fin n m e => (n, m, e)
        | .inf _ | .nan .. => (false, 0, 0)
      roundSum f rm (c' :: ts.map fun t => term t.1 t.2)
/-- A list cut into pieces of `n`. -/
def cut {α : Type} (n : Nat) : Nat → List α → List (List α)
  | 0, _ => []
  | fuel + 1, l => if l.isEmpty then [] else l.take n :: cut n fuel (l.drop n)
/-- Sat32 (R87). -/
def sat32 (x : Int) : FRes :=
  if 2 ^ 31 - 1 < x then { bits := 2 ^ 31 - 1, fl := { isat := true } }
  else if x < -(2 ^ 31) then { bits := 2 ^ 31, fl := { isat := true } }
  else wrapTo 32 x
/-- The sum of R84 over the positions of one K-step that are not skipped, from the accumulator's bits. -/
def millSum (cls : MClass) (rm : Rm) (c : Nat) (ts : List (FVal × FVal)) : FRes :=
  match cls with
  | .int =>
    let term := fun (v w : FVal) => match v, w with
      | .fin n m _, .fin n' m' _ => if n != n' then -((m * m' : Nat) : Int) else ((m * m' : Nat) : Int)
      | _, _ => 0
    sat32 (toSigned 32 c + (ts.map fun t => term t.1 t.2).sum)
  | _ =>
    (cut cls.group ts.length ts).foldl (fun r g =>
      let x := millRound cls.acc rm (cls.acc.decode r.bits) g
      { bits := x.bits, fl := r.fl.or x.fl }) { bits := c }

/-- One block of a row of A meets one column of B: skipped when every A element is a zero and its scale is no NaN, with NFSKIP
when a B element is a NaN or an infinity (R84, R89, R91). -/
def blockAll (sa : Option Nat) (as : List FVal) : Bool := sa != some 255 && as.all FVal.isZero
/-- A B element that a skipped block would have met counts for NFSKIP. -/
def notFinite : FVal → Bool
  | .nan .. | .inf _ => true
  | .fin .. => false

/-! ### Operands in scratch (R248, R249) -/


/-- The bytes of a row of `n` elements (R247, R248). -/
def rowBytes (t : Ty) (n : Nat) : Nat := if t = .lut4 then (n + 1) / 2 else n * (t.w / 8)
/-- The bits of element `j` of a row that begins at a physical address. -/
def rowElem (s : State) (t : Ty) (row j : Nat) : Nat :=
  if t = .lut4 then (memGet s.mem (row + j / 2)).toNat / (if j % 2 = 0 then 1 else 16) % 16
  else s.readN (row + j * (t.w / 8)) (t.w / 8)
/-- The sixteen entries of a codebook (R72). -/
def readBook (s : State) (t : Ty) (addr : Nat) : List Nat :=
  if t = .lut4 then (List.range 16).map fun j => s.readN (addr + 2 * j) 2 else []
/-- The scratch part of a core's cluster in bytes (R149). -/
def scratchPart (s : State) (k : Nat) : Nat := (s.cluster (clusterOf k)).ways.s * 0x40000
/-- Scratch ranges lie inside the scratch part. -/
def rangesFit (s : State) (k : Nat) (rs : List (Nat × Nat)) : Bool := rs.all fun r => r.2 == 0 || r.1 + r.2 ≤ scratchPart s k
/-- The address of the first byte that scratch ranges have beyond the scratch part: the lowest of the first such range
(R262, R288, R397). -/
def firstBeyond (s : State) (k : Nat) (rs : List (Nat × Nat)) : Nat :=
  ((rs.find? fun r => !rangesFit s k [r]).map fun r => 0x400000 + max r.1 (scratchPart s k)).getD 0
/-- A sector of scratch ranges holds an uncorrectable error (R261). -/
def rangesPoisoned (s : State) (k : Nat) (rs : List (Nat × Nat)) : Bool :=
  s.poison.any fun x => rs.any fun r =>
    let a := scratchBase (clusterOf k) + r.1
    r.2 != 0 && x * 32 < a + r.2 && a < x * 32 + 32

/-! ### Rings and shapes at issue (R241 to R246) -/

/-- A ring of a core, when `rset` has made it valid. -/
def Core.ring (x : Core) (k : R5) : Option Ring := Tab.find x.rings k.toNat
/-- A queued Mill command names a ring. -/
def cmdNames (m : Cmd) (k : Nat) : Bool :=
  match m.instr with
  | .mma _ a b _ _ _ bk _ | .mmaz _ a b _ _ _ bk _ => a.toNat == k || (bk && b.toNat == k)
  | .mmt _ a _ _ _ _ _ | .twalk _ a _ _ _ _ _ _ | .twres _ a _ _ _ _ _ _ => a.toNat == k
  | .rpop a _ => a.toNat == k
  | _ => false

/-- `rset` (R242); RING_FORM comes before RING_OWNED (R263; DESIGN CHOICE, notes/assumptions/55.md). -/
def execRset (a k b : R5) (s : State) : Host.Outcome State Fault Refusal :=
  let x := s.srcG a
  let y := s.srcG b
  let r : Ring := { base := Bits x 21 0, slotb := Bits y 19 8 * 64, nslot := Bits y 6 0, guard := Bits y 31 31 == 1 }
  let ok := Bits x 4 0 == 0 && Bits x 63 22 == 0 && 1 ≤ r.nslot && r.nslot ≤ 64 && 64 ≤ r.slotb && Bits y 7 7 == 0 &&
    Bits y 30 20 == 0 && Bits y 63 32 == 0 && r.base + r.nslot * r.slotb ≤ 0x400000
  .next (if !ok then s.trap .ringForm
    else if s.my.mq.any fun m => cmdNames m k.toNat && !m.mill.aborted then s.trap .ringOwned
    else s.updMy fun c => { c with rings := c.rings.put k.toNat r })

/-- The write buffer holds a store from before the issuing bundle (R243; DEDUCED, notes/assumptions/28.md). -/
def olderStores (s : State) : Bool :=
  s.my.wb.any fun e => e.bytes.any (fun b => b.2.2.2 < s.stamp) || e.hid.any fun h => h.2.2 < s.stamp
/-- `rpush` (R243). -/
def execRpush (d k b : R5) (s : State) : Host.Outcome State Fault Refusal :=
  let n := (s.srcG b).toNat
  .next (match s.my.ring k with
    | none => s.trap .ringForm
    | some r =>
      if r.nslot < n then s.trap .ringForm
      else if olderStores s ∨ r.nslot < r.fill + n then s.stall
      else
        (s.updMy fun c => { c with rings := c.rings.put k.toNat { r with fill := r.fill + n } }).setG d
          (BitVec.ofNat 64 (r.nslot - (r.fill + n))))

/-- `shp` (R246). -/
def execShp (a b : R5) (n : BitVec 3) (s : State) : Host.Outcome State Fault Refusal :=
  let x := s.srcG a
  let y := s.srcG b
  let r : Shape := { m := Bits x 7 0, n := Bits x 15 8, ka := Bits x 31 16, kb := Bits x 47 32, astr := Bits y 15 0, bstr := Bits y 31 16 }
  .next (if Bits x 63 48 ≠ 0 ∨ Bits y 63 32 ≠ 0 then s.trap .shape
    else s.updMy fun c => { c with shapes := c.shapes.put n.toNat r })

/-! ### Commands at issue (R247, R252 to R257) -/

/-- A Mill command enters the core's Mill queue and owns tiles, or its bundle stalls (R236, R253). -/
def State.pushM (s : State) (i : Instr) (vals : List Word) (sh : Shape) (own : Option (Nat × Nat)) : State :=
  if 16 ≤ s.my.mq.length then s.stall
  else
    let m := s.newCmd 1 s.my.mq i vals 0
    s.updMy fun x =>
      { x.tookIdx 1 m with
        mq := x.mq ++ [{ m with shape := sh, batch := x.openBatch }]
        owners := match own with
          | none => x.owners
          | some (f, n) => x.owners ++ [{ stamp := s.now, first := f, count := n, batch := x.openBatch }] }
/-- Mt and Nt (R247). -/
def Shape.mt (h : Shape) : Nat := (h.m + 15) / 16
def Shape.nt (h : Shape) : Nat := (h.n + 15) / 16
/-- The shape checks of a dense or triangular command at issue (R247). -/
def shapeBad (h : Shape) (first : Nat) : Bool :=
  h.m == 0 || 64 < h.m || h.n == 0 || h.ka != h.kb || h.ka == 0 || 16 < h.mt * h.nt || 16 < first + h.mt * h.nt
/-- The fault of a B address (R256). -/
def bAddrFault (b : Word) : Option Cause :=
  if Bits b 4 0 ≠ 0 then some .align else if Bits b 63 22 ≠ 0 then some .scratchRange else none

/-- `mma` and `mmaz` at issue (R257). Where several checks fail, RING_FORM comes before SHAPE and SHAPE before the faults of the B address
(R263; DESIGN CHOICE, notes/assumptions/55.md). -/
def State.dense (s : State) (i : Instr) (acc k b : R5) (n : BitVec 3) (bk : Bool) : State :=
  let h := s.my.shapes.get {} n.toNat
  let gb := s.srcG b
  match glGate s true with
  | some c => s.trap c
  | none =>
    if (s.my.ring k).isNone ∨ (bk ∧ (s.my.ring b).isNone) then s.trap .ringForm
    else if shapeBad h acc.toNat then s.trap .shape
    else
      match (if bk then none else bAddrFault gb) with
      | some c => s.trap c
      | none => s.pushM i (if bk then [] else [gb]) h (some (acc.toNat, h.mt * h.nt))
/-- `mma` (R257). -/
def execMma (acc k b : R5) (n : BitVec 3) (hb ha bk : Bool) (rm : Rm) (s : State) : Host.Outcome State Fault Refusal :=
  .next (s.dense (.mma acc k b n hb ha bk rm) acc k b n bk)
/-- `mmaz` (R257). -/
def execMmaz (acc k b : R5) (n : BitVec 3) (hb ha bk : Bool) (rm : Rm) (s : State) : Host.Outcome State Fault Refusal :=
  .next (s.dense (.mmaz acc k b n hb ha bk rm) acc k b n bk)
/-- `mmt` (R256, R257). In a repeat body the diagonal word is the register after the renamed b (R115; DESIGN CHOICE,
notes/assumptions/54.md); the SHAPE of that word is checked last (R263; DESIGN CHOICE, notes/assumptions/55.md). -/
def execMmt (acc k b : R5) (n : BitVec 3) (z ha : Bool) (rm : Rm) (s : State) : Host.Outcome State Fault Refusal :=
  let h := s.my.shapes.get {} n.toNat
  let gb := s.srcG b
  let dg := s.atIssue.readG (b.toNat + 1)
  .next (match glGate s true with
    | some c => s.trap c
    | none =>
      if (s.my.ring k).isNone then s.trap .ringForm
      else if shapeBad h acc.toNat then s.trap .shape
      else
        match bAddrFault gb with
        | some c => s.trap c
        | none =>
          if Bits dg 31 16 ≠ 0 then s.trap .shape
          else s.pushM (.mmt acc k b n z ha rm) [gb, dg] h (some (acc.toNat, h.mt * h.nt)))
/-- `aclr` (R259). The k field holds the count less one. -/
def execAclr (acc k b : R5) (s : State) : Host.Outcome State Fault Refusal :=
  .next (match glGate s true with
    | some c => s.trap c
    | none =>
      if 16 < acc.toNat + k.toNat + 1 then s.trap .shape
      else s.pushM (.aclr acc k b) [s.srcG b] {} (some (acc.toNat, k.toNat + 1)))
/-- `rpop` at issue (R244). -/
def execRpop (k b : R5) (s : State) : Host.Outcome State Fault Refusal :=
  let n := (s.srcG b).toNat
  .next (match glGate s true with
    | some c => s.trap c
    | none =>
      match s.my.ring k with
      | none => s.trap .ringForm
      | some r => if n = 0 ∨ r.nslot < n then s.trap .ringForm else s.pushM (.rpop k b) [s.srcG b] {} none)

/-- `mcommit` closes the open batch, or stalls while 31 closed batches are outstanding (R252). -/
def execMcommit (s : State) : Host.Outcome State Fault Refusal :=
  .next (if 31 ≤ s.my.outstanding.length then s.stall
    else s.updMy fun x => { x with closed := x.outstanding ++ [x.openBatch], openBatch := x.openBatch + 1 })
/-- `mwait n` (R252, R253). -/
def execMwait (b : R5) (s : State) : Host.Outcome State Fault Refusal :=
  .next (if s.my.outstanding.length ≤ b.toNat then
      s.updMy fun x => { releaseTiles x s.now false with closed := x.outstanding }
    else (s.updMe fun x => { x with since := some s.now }).block (.mwait b.toNat s.cur.next s.cur.taken))

/-! ### Starting (R249, R250, R258) -/

/-- The operands of a dense or triangular command: first tile, A ring, B ring if by ring, rounding, and the pops held. -/
structure Dense where
  acc : Nat
  ka : Nat
  kb : Option Nat
  rm : Rm
  zero : Bool
  ha : Bool
  hb : Bool
  tri : Bool
  deriving DecidableEq, Repr
/-- What a queued command is, when it is dense or triangular. -/
def denseOf : Instr → Option Dense
  | .mma acc k b _ hb ha bk rm => some ⟨acc.toNat, k.toNat, if bk then some b.toNat else none, rm, false, ha, hb, false⟩
  | .mmaz acc k b _ hb ha bk rm => some ⟨acc.toNat, k.toNat, if bk then some b.toNat else none, rm, true, ha, hb, false⟩
  | .mmt acc k _ _ z ha rm => some ⟨acc.toNat, k.toNat, none, rm, z, ha, false, true⟩
  | _ => none

/-- The Mill queue of a core is not held, and its head (R237, R262). -/
def millHead (x : Core) : Option Cmd := if (Tab.find x.holds 1).isSome then none else x.mq.head?
/-- The head of the Mill queue is replaced. -/
def putHead (s : State) (k : Nat) (m : Cmd) : State := s.updCore k fun x => { x with mq := m :: x.mq.drop 1 }
/-- An older `aget` or `aput` of the core names one of a range of tiles (R227). -/
def rowsPending (x : Core) (m : Cmd) (first n : Nat) : Bool :=
  x.vq.any fun v => v.stamp < m.stamp && (match vTile v.instr with
    | some t => first ≤ t && t < first + n
    | none => false)
/-- A command of the Mill queue is marked faulted: its context is told, and the queue is held (R262). -/
def millFault (s : State) (k : Nat) (m : Cmd) (c : Cause) (va : Nat) (info : BitVec 32) : State :=
  let s := putHead s k { m with flt := some c, faddr := BitVec.ofNat 64 va, info := info }
  let s := s.updCore k fun x => { x with holds := x.holds.put 1 m.ctx }
  s.report k m.ctx { cause := c, info := info, entry := some (80 + m.idx), stamp := m.stamp }

/-- The tiles that a class uses for each 16 by 16 block. -/
def MClass.tiles : MClass → Nat
  | .c64 => 2
  | .c32 | .c16 | .c8 | .int => 1

/-- The scratch offset of a ring's slot. -/
def slotAt (r : Ring) (i : Nat) : Nat := r.base + i * r.slotb
/-- The next slot of a ring to be taken (R241). -/
def Ring.next (r : Ring) : Nat := (r.tail + r.taken) % r.nslot
/-- A slot of a ring is taken. -/
def takeSlot (x : Core) (k : Nat) : Core := { x with rings := x.rings.upd ⟨0, 64, 1, false, 0, 0, 0⟩ k fun r => { r with taken := r.taken + 1 } }
/-- A taken slot is given back, and popped unless held (R257). -/
def giveSlot (x : Core) (k : Nat) (held : Bool) : Core :=
  { x with rings := x.rings.upd ⟨0, 64, 1, false, 0, 0, 0⟩ k fun r =>
      if held then { r with taken := r.taken - 1 }
      else { r with taken := r.taken - 1, tail := (r.tail + 1) % r.nslot, fill := r.fill - 1 } }

/-- The scratch offsets where A and B of a started command begin. -/
def baseA (x : Core) (m : Cmd) (d : Dense) : Nat := slotAt (x.rings.get ⟨0, 64, 1, false, 0, 0, 0⟩ d.ka) m.mill.slotA
def baseB (x : Core) (m : Cmd) (d : Dense) : Nat :=
  match d.kb with
  | some k => slotAt (x.rings.get ⟨0, 64, 1, false, 0, 0, 0⟩ k) m.mill.slotB
  | none => ((m.vals[0]?).getD 0).toNat % 2 ^ 22

/-- The scratch ranges that rows m0 to m1 − 1 and columns n0 to n1 − 1 read over positions k0 to k1 − 1: operands and scale bytes
(R248, R249). -/
def rangesOf (x : Core) (m : Cmd) (d : Dense) (m0 m1 n0 n1 k0 k1 : Nat) : List (Nat × Nat) :=
  let h := m.shape
  let ta := fmtTy m.mill.fmtA
  let tb := fmtTy m.mill.fmtB
  let at' := fun (t : Ty) (j : Nat) => if t = .lut4 then j / 2 else j * (t.w / 8)
  let sa := m.mill.sclA
  let sb := m.mill.sclB
  ((List.range (m1 - m0)).map fun i =>
      (baseA x m d + (m0 + i) * h.astr + at' ta k0, rowBytes ta k1 - at' ta k0)) ++
    ((List.range (k1 - k0)).map fun i => (baseB x m d + (k0 + i) * h.bstr + at' tb n0, rowBytes tb n1 - at' tb n0)) ++
    (if Bits sa 40 40 = 1 then (List.range (m1 - m0)).map fun i =>
      (Bits sa 21 0 + (m0 + i) * Bits sa 39 24 + k0 / 32, (k1 + 31) / 32 - k0 / 32) else []) ++
    (if Bits sb 40 40 = 1 then (List.range ((k1 + 31) / 32 - k0 / 32)).map fun j =>
      (Bits sb 21 0 + (k0 / 32 + j) * Bits sb 39 24 + n0, n1 - n0) else [])

/-- An operand type may carry block scales (R74, R250). -/
def mayScale (t : Ty) : Bool := t == .e4m3 || t == .e5m2 || t == .lut4
/-- The codebooks of a command (R249). -/
def bookRanges (m : Cmd) : List (Nat × Nat) :=
  ([m.mill.fmtA, m.mill.fmtB].filter fun f => fmtTy f == .lut4).map fun f => (Bits f 37 16, 32)
/-- The fault of a codebook at start, with its address (R73, R250). -/
def bookFault (s : State) (k : Nat) (m : Cmd) : Option (Cause × Nat) :=
  match (bookRanges m).find? fun r => r.1 % 32 != 0 || !rangesFit s k [r] with
  | none => none
  | some r => some (if r.1 % 32 ≠ 0 then (.align, 0x400000 + r.1) else (.scratchRange, firstBeyond s k [r]))

/-- The checks of a dense or triangular command at its start, with its sampled registers: the cause and the address (R247, R249, R250,
R397). Where several fail, the first of MILL_FORM, SHAPE, the codebook's and the operands' is reported
(DESIGN CHOICE, notes/assumptions/55.md). -/
def denseStartFault (s : State) (k : Nat) (m : Cmd) (d : Dense) : Option (Cause × Nat) :=
  let x := s.core k
  let h := m.shape
  let ta := fmtTy m.mill.fmtA
  let tb := fmtTy m.mill.fmtB
  let ra := rowBytes ta h.ka
  let rb := rowBytes tb h.n
  match classOf ta tb with
  | none => some (.millForm, 0)
  | some cls =>
    let rs := rangesOf x m d 0 h.m 0 h.n 0 h.ka
    if (Bits m.mill.sclA 40 40 = 1 ∧ !mayScale ta) ∨ (Bits m.mill.sclB 40 40 = 1 ∧ !mayScale tb) then some (.millForm, 0)
    else if cls = .c64 ∧ (d.acc % 2 = 1 ∨ 16 < d.acc + 2 * h.mt * h.nt) then some (.shape, 0)
    else if h.astr < ra ∨ h.bstr < rb then some (.shape, 0)
    else if (x.rings.get ⟨0, 64, 1, false, 0, 0, 0⟩ d.ka).slotb < (h.m - 1) * h.astr + ra then some (.shape, 0)
    else if (match d.kb with
      | some b => decide ((x.rings.get ⟨0, 64, 1, false, 0, 0, 0⟩ b).slotb < (h.ka - 1) * h.bstr + rb)
      | none => false) then some (.shape, 0)
    else
      match bookFault s k m with
      | some c => some c
      | none => if rangesFit s k rs then none else some (.scratchRange, firstBeyond s k rs)

/-- The command with FMTA, FMTB, SCLA, SCLB, the rounding and the next slots sampled (R249). -/
def sampleMill (x : Core) (m : Cmd) (rm : Rm) (ka : Nat) (kb : Option Nat) : Cmd :=
  let slot := fun (k : Nat) => (x.rings.get ⟨0, 64, 1, false, 0, 0, 0⟩ k).next
  { m with mill := { m.mill with fmtA := x.fmta, fmtB := x.fmtb, sclA := x.scla, sclB := x.sclb, rm := rm.resolve x.mstat.rm,
                                 slotA := slot ka, slotB := (kb.map slot).getD 0 } }
/-- A ring holds a filled slot that no started command has taken. -/
def slotReady (x : Core) (k : Nat) : Bool :=
  let r := x.rings.get ⟨0, 64, 1, false, 0, 0, 0⟩ k
  r.taken + 1 ≤ r.fill
/-- The codebooks of a command that starts, read once: their values, and whether they meet an uncorrectable error (R73, R413). -/
def readBooks (s : State) (k : Nat) (m : Cmd) : Cmd :=
  let at' := fun (f : Word) => scratchBase (clusterOf k) + Bits f 37 16
  { m with mill := { m.mill with bookA := readBook s (fmtTy m.mill.fmtA) (at' m.mill.fmtA),
                                 bookB := readBook s (fmtTy m.mill.fmtB) (at' m.mill.fmtB),
                                 bookBad := rangesPoisoned s k (bookRanges m) } }

/-- An element of an `mmt` is masked (R257). -/
def maskedAt (m : Cmd) (d : Dense) (i j : Nat) : Bool :=
  d.tri && toSigned 16 (Bits ((m.vals[1]?).getD 0) 15 0) < (j : Int) - i
/-- The rows and columns of block q. -/
def blockRange (h : Shape) (q : Nat) : Nat × Nat × Nat × Nat :=
  let r := q / h.nt
  let c := q % h.nt
  (16 * r, min h.m (16 * r + 16), 16 * c, min h.n (16 * c + 16))
/-- The blocks of a command that have steps: an `mmt` passes over those that are wholly masked (R257). -/
def liveBlocks (m : Cmd) (d : Dense) : List Nat :=
  (List.range (m.shape.mt * m.shape.nt)).filter fun q =>
    match blockRange m.shape q with
    | (m0, m1, n0, n1) => (List.range (m1 - m0)).any fun i => (List.range (n1 - n0)).any fun j => !maskedAt m d (m0 + i) (n0 + j)

/-- The destination tiles of a command in the class that FMTA and FMTB name, with which it would start now (R247, R251). -/
def destTiles (x : Core) (m : Cmd) : Nat :=
  ((classOf (fmtTy x.fmta) (fmtTy x.fmtb)).map MClass.tiles).getD 1 * (m.shape.mt * m.shape.nt)
/-- A started command owns the destination tiles of its class (R251, R253). -/
def ownTiles (x : Core) (m : Cmd) (cls : Option MClass) : Core :=
  { x with owners := x.owners.map fun o =>
      if o.stamp = m.stamp ∧ cls = some .c64 then { o with count := 2 * (m.shape.mt * m.shape.nt) } else o }
/-- A dense or triangular command at the head can start (R258). -/
def denseReady (x : Core) (m : Cmd) (d : Dense) : Bool :=
  !rowsPending x m d.acc (destTiles x m) && slotReady x d.ka && (d.kb.map (slotReady x)).getD true
/-- A dense or triangular head starts: its tiles are owned in pairs for the 64-bit class (R253, R258)
(DEDUCED, notes/assumptions/40.md). -/
def startDense (s : State) (k : Nat) (m : Cmd) (d : Dense) : State :=
  let x := s.core k
  if !denseReady x m d then s
  else
    let m := sampleMill x m d.rm d.ka d.kb
    match denseStartFault s k m d with
    | some (c, va) => millFault s k m c va 0
    | none =>
      let m := readBooks s k { m with started := true }
      let m := { m with mill := { m.mill with finished := (liveBlocks m d).isEmpty } }
      let s := putHead s k m
      s.updCore k fun x =>
        let x := takeSlot x d.ka
        ownTiles ((d.kb.map (takeSlot x)).getD x) m (classOf (fmtTy m.mill.fmtA) (fmtTy m.mill.fmtB))

/-! ### Steps (R237, R257) -/

/-- An element of a command's output block q, as the accumulator's bits (R251). -/
def accGet (x : Core) (cls : MClass) (first q i j : Nat) : Nat :=
  let e := fun (t : Nat) => lane (x.tileRow t (i % 16)) 32 (j % 16)
  if cls = .c64 then e (first + 2 * q) + 2 ^ 32 * e (first + 2 * q + 1) else e (first + q)
/-- One 32-bit element of a tile written. -/
def putElem (x : Core) (t i j v : Nat) : Core :=
  let row := x.tileRow t (i % 16)
  x.putRow t (i % 16) (mkLanes 32 16 fun c => if c = j % 16 then v % 2 ^ 32 else lane row 32 c)
/-- The same element written (R251). -/
def accPut (x : Core) (cls : MClass) (first q i j v : Nat) : Core :=
  if cls = .c64 then putElem (putElem x (first + 2 * q) i j v) (first + 2 * q + 1) i j (v / 2 ^ 32) else putElem x (first + q) i j v

/-- The operands of one step: A values of a row, B values of a column, with their scale bytes. -/
def rowA (s : State) (k : Nat) (m : Cmd) (d : Dense) (i k0 k1 : Nat) : Option Nat × List FVal :=
  let x := s.core k
  let b := scratchBase (clusterOf k)
  let t := fmtTy m.mill.fmtA
  let sc := m.mill.sclA
  let e := if Bits sc 40 40 = 1 then some (memGet s.mem (b + Bits sc 21 0 + i * Bits sc 39 24 + k0 / 32)).toNat else none
  (e, (List.range (k1 - k0)).map fun j => elemVal t m.mill.bookA (rowElem s t (b + baseA x m d + i * m.shape.astr) (k0 + j)))
def colB (s : State) (k : Nat) (m : Cmd) (d : Dense) (n k0 k1 : Nat) : List FVal :=
  let x := s.core k
  let b := scratchBase (clusterOf k)
  let t := fmtTy m.mill.fmtB
  let sc := m.mill.sclB
  let e := if Bits sc 40 40 = 1 then some (memGet s.mem (b + Bits sc 21 0 + k0 / 32 * Bits sc 39 24 + n)).toNat else none
  (List.range (k1 - k0)).map fun j =>
    scaled e (elemVal t m.mill.bookB (rowElem s t (b + baseB x m d + (k0 + j) * m.shape.bstr) n))

/-- One output element over one K-step: the new accumulator bits and the flags (R84, R257). -/
def stepElem (cls : MClass) (m : Cmd) (d : Dense) (first : Bool) (i j c : Nat) (sa : Option Nat) (as bs : List FVal) : FRes :=
  if maskedAt m d i j then
    let fill := Bits ((m.vals[1]?).getD 0) 63 32
    { bits := if cls = .c64 then fill * 2 ^ 32 else fill }
  else
    let c := if first && d.zero then 0 else c
    if blockAll sa as then { bits := c, fl := { nfskip := bs.any notFinite } }
    else millSum cls m.mill.rm c (as.map (scaled sa) |>.zip bs)

/-- The step p of a started command: K-step and block (R237). -/
def stepAt (m : Cmd) (d : Dense) (p : Nat) : Nat × Nat :=
  let bl := liveBlocks m d
  (p / bl.length, bl.getD (p % bl.length) 0)
/-- The number of steps of a command. -/
def stepCount (m : Cmd) (d : Dense) : Nat := (m.shape.ka + 31) / 32 * (liveBlocks m d).length

/-- A started command is stopped by an uncorrectable error: its tiles are poisoned, KDONE and ABORT are written, and it counts as
retired with its slots popped unless held (R261). A task with RESTART 1 is restarted or ended instead of told (R379;
DEDUCED, notes/assumptions/46.md). -/
def abortMill (s : State) (k : Nat) (m : Cmd) (tiles : List Nat) (kdone : Nat) (pop : Core → Core) : State :=
  let s := s.updCore k fun x =>
    let x := pop x
    { x with
      mq := { m with flt := some .poison, mill := { m.mill with aborted := true } } :: x.mq.drop 1
      mstat := { x.mstat with abort := true, kdone := kdone % 65536, fl := x.mstat.fl.or m.fl
                              pmask := x.mstat.pmask ++ tiles.filter fun t => !x.mstat.pmask.contains t }
      owners := x.owners.map fun o => if o.stamp = m.stamp then { o with retired := true } else o
      holds := x.holds.put 1 m.ctx }
  match (s.core k).task.bind s.rec? with
  | some r =>
    if r.restart then s.hardError r.ticket .poison
    else wake (s.report k m.ctx { cause := .poison, entry := some (80 + m.idx), stamp := m.stamp }) k
  | none => wake (s.report k m.ctx { cause := .poison, entry := some (80 + m.idx), stamp := m.stamp }) k
/-- The slots of a dense command are given back. -/
def giveSlots (d : Dense) (x : Core) : Core :=
  let x := giveSlot x d.ka d.ha
  match d.kb with
  | some b => giveSlot x b d.hb
  | none => x

/-- One step of a started dense or triangular command. A codebook beyond the scratch part stops it, and one whose read at the start met an
error aborts it (R257, R261, R262; DEDUCED, notes/assumptions/50.md). -/
def denseStep (s : State) (k : Nat) (m : Cmd) (d : Dense) : State :=
  match classOf (fmtTy m.mill.fmtA) (fmtTy m.mill.fmtB) with
  | none => s
  | some cls =>
    let x := s.core k
    let (ks, q) := stepAt m d m.prog
    match blockRange m.shape q with
    | (m0, m1, n0, n1) =>
      let k0 := 32 * ks
      let k1 := min m.shape.ka (k0 + 32)
      let ops := rangesOf x m d m0 m1 n0 n1 k0 k1
      let rs := ops ++ bookRanges m
      if !rangesFit s k rs then millFault s k m .scratchRange (firstBeyond s k rs) 0
      else if m.mill.bookBad || rangesPoisoned s k ops then
        abortMill s k m ((List.range (cls.tiles * (m.shape.mt * m.shape.nt))).map fun t => d.acc + t)
          (m.prog / (liveBlocks m d).length) (giveSlots d)
      else
        let cols := (List.range (n1 - n0)).map fun j => colB s k m d (n0 + j) k0 k1
        let (x, fl) := (List.range (m1 - m0)).foldl (fun (x, fl) i =>
          let (sa, as) := rowA s k m d (m0 + i) k0 k1
          (List.range (n1 - n0)).foldl (fun (x, fl) j =>
            let r := stepElem cls m d (ks == 0) (m0 + i) (n0 + j) (accGet x cls d.acc q (m0 + i) (n0 + j)) sa as (cols.getD j [])
            (accPut x cls d.acc q (m0 + i) (n0 + j) r.bits, Flags.or fl r.fl)) (x, fl)) (x, m.fl)
        let m := { m with prog := m.prog + 1, fl := fl }
        let m := { m with mill := { m.mill with finished := m.prog == stepCount m d } }
        putHead (s.updCore k fun _ => x) k m

/-! ### Retirement (R252, R253, R257) -/

/-- The head of the Mill queue retires: its flags are ORed into MSTAT, and waits on batches may end. -/
def retireHead (s : State) (k : Nat) (m : Cmd) : State :=
  let s := s.updCore k fun x =>
    { x with mq := x.mq.drop 1, owners := x.owners.map fun o => if o.stamp = m.stamp then { o with retired := true } else o }
  wake (s.orFlags k m.fl) k

/-- MILL_COMMAND_RETIRE: a dense or triangular command whose steps are done retires (R257). -/
def execMillCommandRetire (k : Nat) (s : State) : Host.Outcome State Fault Refusal :=
  .next (if s.coreStill k then s
    else
      match millHead (s.core k) with
      | some m =>
        match denseOf m.instr with
        | some d => if m.started && m.mill.finished then retireHead (s.updCore k (giveSlots d)) k m else s
        | none => s
      | none => s)

/-- An `aclr` at the head is performed (R227, R259). -/
def aclrHead (s : State) (k : Nat) : State :=
  match millHead (s.core k) with
  | some m =>
    match m.instr with
    | .aclr acc n _ =>
      let v := ((m.vals[0]?).getD 0).toNat % 2 ^ 32
      let ts := (List.range (n.toNat + 1)).map fun t => acc.toNat + t
      if rowsPending (s.core k) m acc.toNat (n.toNat + 1) then s
      else
        let s := s.updCore k fun x =>
          let x := ts.foldl (fun x t => (List.range 16).foldl (fun x r => x.putRow t r (mkLanes 32 16 fun _ => v)) x) x
          { x with mstat := { x.mstat with pmask := x.mstat.pmask.filter fun t => !ts.contains t } }
        retireHead s k m
    | _ => s
  | none => s
/-- An `rpop` at the head is performed once enough filled slots are free of started commands (R244). -/
def rpopHead (s : State) (k : Nat) : State :=
  match millHead (s.core k) with
  | some m =>
    match m.instr with
    | .rpop kr _ =>
      let n := ((m.vals[0]?).getD 0).toNat
      match (s.core k).ring kr with
      | some r =>
        if n ≤ r.fill - r.taken then
          retireHead (s.updCore k fun x =>
            { x with rings := x.rings.put kr.toNat { r with tail := (r.tail + n) % r.nslot, fill := r.fill - n } }) k m
        else s
      | none => s
    | _ => s
  | none => s

/-- A faulted Mill command is discarded by `eret`: one that never started has no effect; a started one gives back its slots
without a pop (R400). -/
def millDiscard (s : State) (k : Nat) (m : Cmd) : State :=
  let s := s.updCore k fun x =>
    if m.started && !m.mill.aborted then
      match denseOf m.instr with
      | some d =>
        let x := giveSlot x d.ka true
        match d.kb with
        | some b => giveSlot x b true
        | none => x
      | none =>
        match m.instr with
        | .twalk _ a _ _ _ _ _ _ | .twres _ a _ _ _ _ _ _ => giveSlot x a.toNat true
        | _ => x
    else x
  let s := s.updCore k fun x =>
    { x with mq := x.mq.filter fun e => e.idx != m.idx
             owners := x.owners.map fun o => if o.stamp = m.stamp then { o with retired := true } else o }
  wake (if m.started && !m.mill.aborted then s.orFlags k m.fl else s) k

end Sys2Proof.Machine
end

