-- ==== Sys2Proof/Machine/Walk.lean ====
section
/-! DEFINITION. The tree walk (R266 to R295, R88), and the arbiter of the Mill: starts and steps (R238, R258). -/

namespace Sys2Proof.Machine

/-- The operands of a walk: first tile, ring, TRAP, KEEP, HA, rounding, and whether it begins afresh (`twalk`). -/
structure Walk where
  acc : Nat
  k : Nat
  trp : Bool
  keep : Bool
  ha : Bool
  rm : Rm
  fresh : Bool
  deriving DecidableEq, Repr
/-- What a queued command is, when it is a walk (R270). -/
def walkOf : Instr → Option Walk
  | .twalk acc k _ _ trp keep ha rm => some ⟨acc.toNat, k.toNat, trp, keep, ha, rm, true⟩
  | .twres acc k _ _ trp keep ha rm => some ⟨acc.toNat, k.toNat, trp, keep, ha, rm, false⟩
  | _ => none

/-! ### Issue (R271 to R273) -/

/-- The fields of the three registers that a walk carries (R271). -/
def Cmd.gB (m : Cmd) : Nat := ((m.vals[0]?).getD 0).toNat
def Cmd.nnode (m : Cmd) : Nat := Bits ((m.vals[1]?).getD 0) 47 24
def Cmd.root (m : Cmd) : Nat := Bits ((m.vals[1]?).getD 0) 23 0
def Cmd.wcap (m : Cmd) : Nat := Bits ((m.vals[1]?).getD 0) 55 48
def Cmd.wsa (m : Cmd) : Nat := Bits ((m.vals[2]?).getD 0) 21 0
def Cmd.lia (m : Cmd) : Nat := Bits ((m.vals[2]?).getD 0) 53 32

/-- The fault of a walk at issue (R273). -/
def walkIssueFault (x : Core) (acc k : Nat) (h : Shape) (b1 b2 b3 : Word) : Option Cause :=
  let wsa := Bits b3 21 0
  let lia := Bits b3 53 32
  if (Tab.find x.rings k).isNone then some .ringForm
  else if h.m = 0 ∨ 64 < h.m ∨ h.n = 0 ∨ h.ka = 0 ∨ h.kb ≠ 0 ∨ h.bstr ≠ 0 ∨ 16 < h.mt * h.nt ∨ 16 < acc + h.mt * h.nt ∨
      Bits b2 47 24 = 0 ∨ Bits b2 47 24 ≤ Bits b2 23 0 ∨ Bits b2 63 56 ≠ 0 ∨ Bits b3 31 22 ≠ 0 ∨ Bits b3 63 54 ≠ 0 then
    some .shape
  else if b1.toNat % 64 ≠ 0 ∨ wsa % 8 ≠ 0 ∨ lia % 4 ≠ 0 then some .align
  else if 0x400000 < wsa + 8 * h.m ∨ 0x400000 < lia + 4 * h.m then some .scratchRange
  else none
/-- A walk at issue (R273). -/
def State.walk (s : State) (i : Instr) (acc k b : R5) (n : BitVec 3) : State :=
  let h := s.my.shapes.get {} n.toNat
  let g := fun (j : Nat) => s.atIssue.readG (b.toNat + j)
  match glGate s true with
  | some c => s.trap c
  | none =>
    match (if walkBase b then walkIssueFault s.my acc.toNat k.toNat h (g 0) (g 1) (g 2) else some .illegalEnc) with
    | some c => s.trap c
    | none => s.pushM i [g 0, g 1, g 2] h (some (acc.toNat, h.mt * h.nt))
/-- `twalk` (R270 to R273). -/
def execTwalk (acc k b : R5) (n : BitVec 3) (trp keep ha : Bool) (rm : Rm) (s : State) : Host.Outcome State Fault Refusal :=
  .next (s.walk (.twalk acc k b n trp keep ha rm) acc k b n)
/-- `twres` (R270 to R273, R287). -/
def execTwres (acc k b : R5) (n : BitVec 3) (trp keep ha : Bool) (rm : Rm) (s : State) : Host.Outcome State Fault Refusal :=
  .next (s.walk (.twres acc k b n trp keep ha rm) acc k b n)

/-! ### Start (R274, R276) -/

/-- Two scratch ranges overlap. -/
def overlap (a b : Nat × Nat) : Bool := a.1 < b.1 + b.2 && b.1 < a.1 + a.2
/-- The walk-state records and the leaf-id vector. -/
def walkRanges (m : Cmd) : List (Nat × Nat) := [(m.wsa, 8 * m.shape.m), (m.lia, 4 * m.shape.m)]
/-- The checks of a walk at its start, with its sampled registers: the cause and the address (R274, R397). -/
def walkStartFault (s : State) (k : Nat) (m : Cmd) (w : Walk) : Option (Cause × Nat) :=
  let h := m.shape
  let r := (s.core k).rings.get ⟨0, 64, 1, false, 0, 0, 0⟩ w.k
  let row := rowBytes (fmtTy m.mill.fmtA) h.ka
  let slots := (r.base, r.nslot * r.slotb)
  let rec' := (m.wsa, 8 * h.m)
  let leaf := (m.lia, 4 * h.m)
  match classOf (fmtTy m.mill.fmtA) (fmtTy m.mill.fmtB) with
  | none => some (.millForm, 0)
  | some cls =>
    if Bits m.mill.sclA 40 40 = 1 ∨ Bits m.mill.sclB 40 40 = 1 then some (.millForm, 0)
    else if cls = .c64 ∧ (w.acc % 2 = 1 ∨ 16 < w.acc + 2 * h.mt * h.nt) then some (.shape, 0)
    else if h.astr < row ∨ r.slotb < (h.m - 1) * h.astr + row then some (.shape, 0)
    else if overlap rec' leaf || overlap rec' slots || overlap leaf slots then some (.shape, 0)
    else
      match bookFault s k m with
      | some c => some c
      | none => if rangesFit s k (walkRanges m) then none else some (.scratchRange, firstBeyond s k (walkRanges m))

/-- A walk-state record (R275). -/
structure WalkRec where
  frm : Nat
  choice : Nat
  fcode : Nat
  status : Nat
  depth : Nat
  node : Nat
  /-- a reserved bit is set -/
  bad : Bool := false
  deriving DecidableEq, Repr
/-- A record from its 64 bits. -/
def WalkRec.ofBits (x : Nat) : WalkRec :=
  { frm := x / 2 ^ 40 % 2 ^ 24, choice := x / 2 ^ 37 % 8, fcode := x / 2 ^ 32 % 16, status := x / 2 ^ 29 % 4,
    depth := x / 2 ^ 24 % 32, node := x % 2 ^ 24, bad := x.testBit 36 || x.testBit 31 }
/-- The 64 bits of a record, with its reserved bits clear. -/
def WalkRec.bits (r : WalkRec) : Nat :=
  r.frm % 2 ^ 24 * 2 ^ 40 + r.choice % 8 * 2 ^ 37 + r.fcode % 16 * 2 ^ 32 + r.status % 4 * 2 ^ 29 + r.depth % 32 * 2 ^ 24 +
    r.node % 2 ^ 24
/-- A record is invalid (R276). -/
def WalkRec.invalid (r : WalkRec) (nnode : Nat) : Bool :=
  r.status == 3 || r.bad || 16 < r.depth ||
    (r.status == 0 && (nnode ≤ r.node || (r.frm != 0xFFFFFF && nnode ≤ r.frm)))

/-- The records of a walk in scratch, as their bits. -/
def walkRecs (s : State) (k : Nat) (m : Cmd) : List Nat :=
  (List.range m.shape.m).map fun i => s.readN (scratchBase (clusterOf k) + m.wsa + 8 * i) 8
/-- The record of row i written. -/
def putRec (s : State) (k : Nat) (m : Cmd) (i : Nat) (r : WalkRec) : State :=
  s.writeN (scratchBase (clusterOf k) + m.wsa + 8 * i) 8 r.bits
/-- The leaf-id entry of row i written. -/
def putLeaf (s : State) (k : Nat) (m : Cmd) (i v : Nat) : State := s.writeN (scratchBase (clusterOf k) + m.lia + 4 * i) 4 v

/-- A walk at the head can start; it writes memory, so the earlier loads of its context come first (R185, R258). -/
def walkReady (x : Core) (m : Cmd) (w : Walk) : Bool :=
  !rowsPending x m w.acc (destTiles x m) && slotReady x w.k && !x.cmdWaits m
/-- A walk at the head starts: `twalk` writes its first records and leaf-id entries (R274, R276). -/
def startWalk (s : State) (k : Nat) (m : Cmd) (w : Walk) : State :=
  let x := s.core k
  if !walkReady x m w then s
  else
    let m := sampleMill x m w.rm w.k none
    match walkStartFault s k m w with
    | some (c, va) => millFault s k m c va 0
    | none =>
      let m := readBooks s k { m with started := true }
      let s := putHead s k m
      let s := s.updCore k fun x => ownTiles (takeSlot x w.k) m (classOf (fmtTy m.mill.fmtA) (fmtTy m.mill.fmtB))
      if w.fresh then
        (List.range m.shape.m).foldl (fun s i =>
          putLeaf (putRec s k m i { frm := 0xFFFFFF, choice := 0, fcode := 0, status := 0, depth := 0, node := m.root }) k m i
            0xFFFFFFFF) s
      else s

/-! ### Node records (R266 to R269) -/

/-- A node record (R267). -/
structure Node where
  ctrl : Nat
  din : Nat
  dout : Nat
  wptr : Nat
  thr : Nat
  leafid : Nat
  res : Nat
  child : List Nat
  deriving DecidableEq, Repr
/-- A record from its 64 bytes. -/
def Node.ofBytes (b : List Byte) : Node :=
  let f := fun (o n : Nat) => Sys2Proof.Machine.ofBytes ((b.drop o).take n)
  { ctrl := f 0 4, din := f 4 2, dout := f 6 2, wptr := f 8 8, thr := f 16 8, leafid := f 24 4, res := f 28 4,
    child := (List.range 8).map fun j => f (32 + 4 * j) 4 }
def Node.leaf (n : Node) : Bool := n.ctrl % 2 == 1
def Node.rule (n : Node) : Nat := n.ctrl / 2 % 4
def Node.fan (n : Node) : Nat := n.ctrl / 16 % 16
def Node.shift (n : Node) : Nat := n.ctrl / 256 % 64
/-- A record is malformed (R269). -/
def Node.malformed (n : Node) (cls : MClass) : Bool :=
  n.res != 0 || n.ctrl / 2 ^ 14 != 0 || n.ctrl.testBit 3 || n.rule == 3 || n.din == 0 || n.dout == 0 || n.wptr % 32 != 0 ||
    (if n.leaf then
      n.rule != 0 || n.fan != 0 || n.shift != 0 || n.thr != 0 || n.child.any (fun c => c != 0) || n.leafid == 0xFFFFFFFF
    else
      n.fan < 2 || 8 < n.fan || ((n.rule == 0 || n.rule == 2) && n.fan != 2) || (n.rule == 1 && n.dout < n.fan) ||
        (n.child.drop n.fan).any (fun c => c != 0) || n.leafid != 0 || (n.rule != 2 && n.thr != 0) ||
        (cls != .c64 && n.thr / 2 ^ 32 != 0))

/-- Why a read of a wave fails: a fault with its address and table level, or an uncorrectable error (R288, R289). -/
abbrev WaveErr := Cause × Nat × Nat

/-- Bytes read by a wave at a virtual address of the core: the scratch local alias or a translated range, and PAGE elsewhere, at the
first byte that lies elsewhere (R266, R397). -/
def waveRead (s : State) (k : Nat) (sup : Bool) (va n : Nat) : Except WaveErr (List Byte × State) :=
  let top := if 0x400000 ≤ va ∧ va < 0x800000 then 0x800000 else if 0x1000000 ≤ va ∧ va < 2 ^ 47 then 2 ^ 47 else va
  let s := engReach s k va (min n (top - va))
  match engCheck s k sup false va (min n (top - va)) with
  | .error e => .error e
  | .ok ps =>
    if top < va + n then .error (.page, top, 0)
    else
      match engReadParts s (tileOf k) ps with
      | (bs, false, s) => .ok (bs, s)
      | (_, true, _) => .error (.poison, va, 0)

/-- The node records of a list of indices, read once each in order (R277, R290). -/
def waveNodes (s : State) (k : Nat) (m : Cmd) : List Nat → Except WaveErr (List (Nat × Node) × State)
  | [] => .ok ([], s)
  | n :: t =>
    match waveRead s k m.sup ((m.gB + 64 * n) % 2 ^ 64) 64 with
    | .error e => .error e
    | .ok (bs, s) =>
      match waveNodes s k m t with
      | .error e => .error e
      | .ok (l, s) => .ok ((n, Node.ofBytes bs) :: l, s)
/-- The rows of a node matrix, read in order (R268). -/
def waveMatrix (s : State) (k : Nat) (m : Cmd) (base bytes rb : Nat) : Nat → Nat → Except WaveErr (List (List Byte) × State)
  | 0, _ => .ok ([], s)
  | fuel + 1, j =>
    match waveRead s k m.sup ((base + j * rb) % 2 ^ 64) bytes with
    | .error e => .error e
    | .ok (bs, s) =>
      match waveMatrix s k m base bytes rb fuel (j + 1) with
      | .error e => .error e
      | .ok (l, s) => .ok (bs :: l, s)
/-- The bits of element `j` of a row given by its bytes. -/
def elemOf (t : Ty) (row : List Byte) (j : Nat) : Nat :=
  if t = .lut4 then (row.getD (j / 2) 0).toNat / (if j % 2 = 0 then 1 else 16) % 16
  else ofBytes ((row.drop (j * (t.w / 8))).take (t.w / 8))

/-! ### A wave (R277 to R284) -/

/-- The product of one row by one column: the sum of R84 over DIN positions from zero, skipping all-zero blocks (R278). -/
def walkDot (cls : MClass) (rm : Rm) (as bs : List FVal) : FRes :=
  ((cut 32 as.length as).zip (cut 32 bs.length bs)).foldl (fun r q =>
    if blockAll none q.1 then { r with fl := r.fl.or { nfskip := q.2.any notFinite } }
    else
      let x := millSum cls rm r.bits (q.1.zip q.2)
      { bits := x.bits, fl := r.fl.or x.fl }) { bits := 0 }

/-- a < b and NaN tests of an accumulator element (R279). -/
def accNan (cls : MClass) (x : Nat) : Bool := if cls = .int then false else (cls.acc.decode x).isNan
def accLt (cls : MClass) (x y : Nat) : Bool :=
  if cls = .int then decide (toSigned 32 x < toSigned 32 y)
  else !accNan cls x && !accNan cls y && fLt (cls.acc.decode x) (cls.acc.decode y)
/-- The child number that an internal node chooses for a product (R279). -/
def Node.choose (n : Node) (cls : MClass) (x : List Nat) : Nat :=
  let x0 := x.getD 0 0
  if n.rule = 0 then (if accLt cls x0 0 then 0 else 1)
  else if n.rule = 2 then (if accLt cls n.thr x0 then 1 else 0)
  else
    let pick := (List.range n.fan).foldl (fun (b : Option Nat) j =>
      let v := x.getD j 0
      if accNan cls v then b
      else
        match b with
        | none => some j
        | some i => if accLt cls (x.getD i 0) v then some j else b) none
    pick.getD 0

/-- Requantisation of one element (R88). -/
def requant (cls : MClass) (t : Ty) (sh x : Nat) : FRes :=
  if t = .i8 then
    let v := toSigned 32 x
    let (r, _) := roundAt .rne (v < 0) v.natAbs (-(sh : Int)) 0
    let y : Int := if v < 0 then -(r : Int) else r
    if 127 < y then { bits := 127, fl := { isat := true } }
    else if y < -128 then { bits := 128, fl := { isat := true } }
    else { bits := (y % 256).toNat }
  else
    let f := t.fmt
    match cls.acc.decode x with
    | .nan .. => { bits := f.nan }
    | .inf n => { bits := f.sign n + f.largest, fl := { csat := true } }
    | .fin n v e =>
      let r := roundTo f .rne n v (e - sh)
      if r.fl.ovf || r.fl.csat then { bits := f.sign n + f.largest, fl := { csat := true } } else r

/-- What a wave has gathered: records, flags, the core's tiles, carried rows, leaf ids and new faults. -/
structure Wave where
  recs : Tab WalkRec
  fl : Flags
  core : Core
  carried : List (Nat × List Nat) := []
  leaves : List (Nat × Nat) := []
  faulted : List Nat := []
  steps : Nat := 0
  deriving DecidableEq, Repr
/-- A row faults with a code (R284). -/
def Wave.fault (v : Wave) (i code : Nat) (choice : Option Nat) : Wave :=
  let r := v.recs.get (WalkRec.ofBits 0) i
  { v with recs := v.recs.put i { r with status := 2, fcode := code, choice := choice.getD r.choice, bad := false }
           faulted := v.faulted ++ [i] }

/-- A row decides at an internal node with its product (R280, R281). -/
def Wave.decide (v : Wave) (m : Cmd) (w : Walk) (cls : MClass) (n : Nat) (nd : Node) (i : Nat) (x : List Nat) : Wave :=
  let r := v.recs.get (WalkRec.ofBits 0) i
  let c := nd.choose cls x
  let ch := nd.child.getD c 0
  if r.depth = 16 then v.fault i 2 (some c)
  else if m.nnode ≤ ch then v.fault i 1 (some c)
  else
    let q := if w.keep then [] else x.map fun e => requant cls (fmtTy m.mill.fmtA) nd.shift e
    { v with
      recs := v.recs.put i { r with frm := n, node := ch, depth := r.depth + 1, choice := c }
      fl := q.foldl (fun f e => f.or e.fl) v.fl
      carried := if w.keep then v.carried else v.carried ++ [(i, q.map fun e => e.bits)] }
/-- A row reaches a leaf with its product (R283). -/
def Wave.leaf (v : Wave) (m : Cmd) (w : Walk) (cls : MClass) (nd : Node) (i : Nat) (x : List Nat) : Wave :=
  let r := v.recs.get (WalkRec.ofBits 0) i
  { v with
    recs := v.recs.put i { r with status := 1 }
    leaves := v.leaves ++ [(i, nd.leafid)]
    core := (List.range m.shape.n).foldl (fun y j =>
      accPut y cls w.acc (i / 16 * m.shape.nt + j / 16) i j (x.getD j 0)) v.core }

/-- The width of a row (R282). -/
def rowWidth (m : Cmd) (w : Walk) (nodes : List (Nat × Node)) (r : WalkRec) : Nat :=
  if w.keep ∨ r.frm = 0xFFFFFF then m.shape.ka
  else
    match nodes.find? fun n => n.1 == r.frm with
    | some n => n.2.dout
    | none => 0
/-- The widest row that the slot holds (R274). -/
def slotWidth (m : Cmd) : Nat :=
  let t := fmtTy m.mill.fmtA
  if t = .lut4 then 2 * m.shape.astr else m.shape.astr / (t.w / 8)
/-- A row faults NODE_FORM at a node (R269, R282). -/
def chainBad (m : Cmd) (w : Walk) (cls : MClass) (nodes : List (Nat × Node)) (nd : Node) (r : WalkRec) : Bool :=
  nd.malformed cls || nd.din != rowWidth m w nodes r || (!nd.leaf && !w.keep && slotWidth m < nd.dout) ||
    (nd.leaf && nd.dout != m.shape.n)

/-- The scratch offset of row i of the slot. -/
def rowAt (x : Core) (m : Cmd) (w : Walk) (i : Nat) : Nat :=
  slotAt (x.rings.get ⟨0, 64, 1, false, 0, 0, 0⟩ w.k) m.mill.slotA + i * m.shape.astr

/-- One group of a wave, its rows fixed at the wave's start: its failing rows fault, and the others decide or reach a leaf with their
products (R277, R278). -/
def waveGroup (s : State) (k : Nat) (m : Cmd) (w : Walk) (cls : MClass) (nodes : List (Nat × Node)) (n : Nat) (rows : List Nat) (v : Wave) :
    Except WaveErr (Wave × State) :=
  match nodes.find? fun q => q.1 == n with
  | none => .ok (v, s)
  | some (_, nd) =>
    let rec' := fun (i : Nat) => v.recs.get (WalkRec.ofBits 0) i
    let (bad, live) := rows.partition fun i => chainBad m w cls nodes nd (rec' i)
    let v := bad.foldl (fun v i => v.fault i 3 none) v
    if live.isEmpty then .ok (v, s)
    else
      let ta := fmtTy m.mill.fmtA
      let tb := fmtTy m.mill.fmtB
      let x := s.core k
      let base := scratchBase (clusterOf k)
      let ranges := live.map fun i => (rowAt x m w i, rowBytes ta nd.din)
      if !rangesFit s k ranges then .error (.scratchRange, firstBeyond s k ranges, 0)
      else if rangesPoisoned s k ranges then .error (.poison, 0, 0)
      else
        match waveMatrix s k m nd.wptr (rowBytes tb nd.dout) ((rowBytes tb nd.dout + 31) / 32 * 32) nd.din 0 with
        | .error e => .error e
        | .ok (mat, s) =>
          let cols := (List.range nd.dout).map fun j => mat.map fun r => elemVal tb m.mill.bookB (elemOf tb r j)
          let v := { v with steps := v.steps + (live.length + 15) / 16 * ((nd.dout + 15) / 16) * ((nd.din + 31) / 32) }
          let v := live.foldl (fun v i =>
            let as := (List.range nd.din).map fun j => elemVal ta m.mill.bookA (rowElem s ta (base + rowAt x m w i) j)
            let ps := cols.map fun bs => walkDot cls m.mill.rm as bs
            let v := { v with fl := ps.foldl (fun (f : Flags) (p : FRes) => f.or p.fl) v.fl }
            let p := ps.map FRes.bits
            if nd.leaf then v.leaf m w cls nd i p else v.decide m w cls n nd i p) v
          .ok (v, s)
/-- The groups of a wave, each a node with its rows, in increasing node index. -/
def waveGroups (s : State) (k : Nat) (m : Cmd) (w : Walk) (cls : MClass) (nodes : List (Nat × Node)) :
    List (Nat × List Nat) → Wave → Except WaveErr (Wave × State)
  | [], v => .ok (v, s)
  | (n, rows) :: t, v =>
    match waveGroup s k m w cls nodes n rows v with
    | .error e => .error e
    | .ok (v, s) => waveGroups s k m w cls nodes t v

/-- Distinct numbers in rising order. -/
def rising (l : List Nat) : List Nat := (l.foldl (fun t n => Tab.put t n ()) ([] : Tab Unit)).map fun e => e.1

/-- The plan of one wave from the records of active rows (R277; DEDUCED, notes/assumptions/35.md). A carry-mode walk in lut4 faults them
all without reading a node (R281; DESIGN CHOICE, notes/assumptions/35.md). -/
def planWave (s : State) (k : Nat) (m : Cmd) (w : Walk) (cls : MClass) (act : List Nat) (v : Wave) :
    Except WaveErr (Wave × State) :=
  if !w.keep ∧ fmtTy m.mill.fmtA = .lut4 then .ok (act.foldl (fun v i => v.fault i 3 none) v, s)
  else
    let rec' := fun (i : Nat) => v.recs.get (WalkRec.ofBits 0) i
    let at' := rising (act.map fun i => (rec' i).node)
    let from' := if w.keep then [] else
      (rising (act.map fun i => (rec' i).frm)).filter fun n => n != 0xFFFFFF && !at'.contains n
    match waveNodes s k m (at' ++ from') with
    | .error e => .error e
    | .ok (nodes, s) => waveGroups s k m w cls nodes (at'.map fun n => (n, act.filter fun i => (rec' i).node == n)) v

/-- A row written into the slot (R281), with no check of the scratch part where it is wider than the row read
(DESIGN CHOICE, notes/assumptions/35.md). -/
def carryRow (s : State) (k : Nat) (m : Cmd) (w : Walk) (i : Nat) (vs : List Nat) : State :=
  let n := (fmtTy m.mill.fmtA).w / 8
  s.write (scratchBase (clusterOf k) + rowAt (s.core k) m w i) (vs.flatMap fun v => toBytes n v)

/-- A walk retires at completion or pause, with WALK_ROWS when TRAP is set and rows have faulted (R285, R286). The report names no entry of
the operand log (DESIGN CHOICE, notes/assumptions/35.md). -/
def retireWalk (s : State) (k : Nat) (m : Cmd) (w : Walk) (keepSlot : Bool) : State :=
  let s := retireHead (s.updCore k fun x => giveSlot x w.k keepSlot) k m
  match w.trp, rising m.mill.faulted with
  | true, i :: t =>
    let s := s.updCore k fun x => { x with holds := x.holds.put 1 m.ctx }
    s.report k m.ctx { cause := .walkRows, info := BitVec.ofNat 32 (t.length + 1 + i * 2 ^ 16), stamp := m.stamp }
  | _, _ => s

/-- A wave that stops takes no effect: the records of invalid rows that it has written go back, where they still hold what it wrote
(R276, R288, R289; DEDUCED, notes/assumptions/35.md). -/
def undoWave (s : State) (k : Nat) (m : Cmd) : State :=
  m.mill.undo.foldl (fun s q =>
    let a := scratchBase (clusterOf k) + m.wsa + 8 * q.1
    if rangesFit s k [(m.wsa + 8 * q.1, 8)] && s.readN a 8 == q.2.2 then s.writeN a 8 q.2.1 else s) s
/-- One step of a started walk. A wave reads the records at its start, writes those of the invalid rows at once, counts its walk steps, at
least one, and takes its other effects with the step that ends it; the records are read beside the nodes, the matrices, the codebooks and
the slot (R276, R277, R288 to R292; DEDUCED, notes/assumptions/34.md, 50.md). Records or leaf ids beyond the scratch part stop a wave as
R288 says (DESIGN CHOICE, notes/assumptions/35.md). A stop undoes what the wave's earlier steps wrote. -/
def wave (s : State) (k : Nat) (m : Cmd) (w : Walk) : State :=
  match classOf (fmtTy m.mill.fmtA) (fmtTy m.mill.fmtB) with
  | none => s
  | some cls =>
    let stop := fun (e : WaveErr) =>
      let s := undoWave s k m
      let m := { m with mill := { m.mill with faulted := m.mill.faulted.take (m.mill.faulted.length - m.mill.undo.length), undo := [] } }
      if e.1 = .poison then
        abortMill s k m ((List.range (cls.tiles * (m.shape.mt * m.shape.nt))).map fun t => w.acc + t) m.mill.waves
          (fun x => giveSlot x w.k true)
      else millFault (s.orFlags k m.fl) k { m with fl := {} } e.1 e.2.1 (accessInfo e.1 false e.2.2 0)
    let areas := walkRanges m ++ bookRanges m
    if !rangesFit s k areas then stop (.scratchRange, firstBeyond s k areas, 0)
    else if m.mill.bookBad || rangesPoisoned s k [(m.wsa, 8 * m.shape.m)] then stop (.poison, 0, 0)
    else
      let bits := if m.mill.steps = 0 then walkRecs s k m else m.mill.recs
      let recs := (List.range m.shape.m).map fun i => (i, WalkRec.ofBits (bits.getD i 0))
      let v : Wave := { recs := recs, fl := m.fl, core := s.core k }
      let inv := if m.mill.steps = 0 then (recs.filter fun r => r.2.invalid m.nnode).map fun r => r.1 else []
      let fixed := inv.foldl (fun v i => v.fault i 4 none) v
      let v := fixed
      let act := (List.range m.shape.m).filter fun i => (v.recs.get (WalkRec.ofBits 0) i).status == 0
      let s0 := inv.foldl (fun s i => putRec s k m i (v.recs.get (WalkRec.ofBits 0) i)) s
      if act.isEmpty then
        let m := { m with mill := { m.mill with faulted := m.mill.faulted ++ v.faulted } }
        retireWalk (putHead s0 k m) k m w w.ha
      else
        match planWave s0 k m w cls act v with
        | .error e => stop e
        | .ok (v, t) =>
          if m.mill.steps + 1 < v.steps then
            putHead s0 k { m with mill := { m.mill with
              steps := m.mill.steps + 1, faulted := m.mill.faulted ++ inv
              undo := m.mill.undo ++ inv.map fun i => (i, bits.getD i 0, (fixed.recs.get (WalkRec.ofBits 0) i).bits)
              recs := (bits.mapIdx fun i b => if inv.contains i then (fixed.recs.get (WalkRec.ofBits 0) i).bits else b) } }
          else
            let t := t.updCore k fun x => { x with tiles := v.core.tiles }
            let t := act.foldl (fun t i => putRec t k m i (v.recs.get (WalkRec.ofBits 0) i)) t
            let t := v.leaves.foldl (fun t l => putLeaf t k m l.1 l.2) t
            let t := v.carried.foldl (fun t c => carryRow t k m w c.1 c.2) t
            let m := { m with fl := v.fl, prog := m.prog + 1
                              mill := { m.mill with waves := m.mill.waves + 1, faulted := m.mill.faulted ++ v.faulted
                                                    steps := 0, recs := [], undo := [] } }
            let still := act.any fun i => (v.recs.get (WalkRec.ofBits 0) i).status == 0
            let t := putHead t k m
            if m.wcap ≠ 0 ∧ m.mill.waves = m.wcap ∧ still then retireWalk t k m w true else t

/-! ### Starts and the arbiter (R238, R258) -/

/-- A head that has not started starts when it can (R258). -/
def startHead (s : State) (k : Nat) : State :=
  match millHead (s.core k) with
  | some m =>
    if m.started then s
    else
      match denseOf m.instr with
      | some d => startDense s k m d
      | none =>
        match walkOf m.instr with
        | some w => startWalk s k m w
        | none => s
  | none => s
/-- MILL_COMMAND_START: the head of a core's Mill queue starts (R258). -/
def execMillCommandStart (k : Nat) (s : State) : Host.Outcome State Fault Refusal := .next (if s.coreStill k then s else startHead s k)

/-- The head command of a core has a startable step: it has started and is not done, or it can start (R238). -/
def startable (x : Core) : Bool :=
  match millHead x with
  | none => false
  | some m =>
    match denseOf m.instr with
    | some d =>
      if m.started then !m.mill.finished else denseReady x m d
    | none =>
      match m.instr with
      | .aclr acc n _ => !rowsPending x m acc.toNat (n.toNat + 1)
      | .rpop kr _ =>
        match x.ring kr with
        | some r => ((m.vals[0]?).getD 0).toNat ≤ r.fill - r.taken
        | none => false
      | _ =>
        match walkOf m.instr with
        | some w => m.started || walkReady x m w
        | none => false
/-- One startable step of a core (R238). -/
def oneStep (s : State) (k : Nat) : State :=
  let s := startHead s k
  match millHead (s.core k) with
  | none => s
  | some m =>
    match denseOf m.instr with
    | some d => if m.started && !m.mill.finished then denseStep s k m d else s
    | none =>
      match walkOf m.instr with
      | some w => if m.started then wave s k m w else s
      | none =>
        match m.instr with
        | .aclr .. => aclrHead s k
        | .rpop .. => rpopHead s k
        | _ => s

/-- The core of a cluster whose step is next, and the steps that are left of its turn (R238, R239). -/
def millPick (s : State) (cl : Nat) : Option (Nat × Nat) :=
  let c := s.cluster cl
  (((List.range 8).map fun i => (c.millP + i) % 8).find? fun j => startable (s.core (cl * 8 + j))).map fun j =>
    (j, if j = c.millP ∧ c.millLeft ≠ 0 then c.millLeft else c.mweight.get 1 j)
/-- The arbiter's registers with `n` steps of core j's turn left; a core with no startable step has ended its turn (R238). -/
def leaveTurn (s : State) (cl j n : Nat) : State :=
  s.updCluster cl fun c =>
    if n = 0 ∨ !startable (s.core (cl * 8 + j)) then { c with millP := (j + 1) % 8, millLeft := 0 }
    else { c with millP := j, millLeft := n }
/-- Up to `n` consecutive steps of core j, while its head has a startable step (R238). -/
def millTurn (cl j : Nat) : Nat → State → State
  | 0, s => leaveTurn s cl j 0
  | n + 1, s => if startable (s.core (cl * 8 + j)) then millTurn cl j n (oneStep s (cl * 8 + j)) else leaveTurn s cl j 0
/-- MILL_STEP: the arbiter of a cluster performs what is left of a turn (R238, R239, R351). -/
def execMillStep (cl : Nat) (s : State) : Host.Outcome State Fault Refusal :=
  .next (if s.clusterStill cl then s
    else
      match millPick s cl with
      | none => s
      | some (j, n) => s.ifInTurn (millTurn cl j n s))
/-- One step of a core's turn, when the arbiter has come to that core and its head is a command of one kind (R238). -/
def turnStep (s : State) (k : Nat) (kind : Cmd → Bool) : State :=
  match millPick s (clusterOf k), millHead (s.core k) with
  | some (j, n), some m => if j = lcoreOf k ∧ kind m then leaveTurn (oneStep s k) (clusterOf k) j (n - 1) else s
  | _, _ => s
/-- WALK_WAVE: a step of the walk at a core's queue head, which performs the wave that it ends (R277, R292, R351). -/
def execWalkWave (k : Nat) (s : State) : Host.Outcome State Fault Refusal :=
  .next (if s.coreStill k then s else s.ifInTurn (turnStep s k fun m => m.started && (walkOf m.instr).isSome))
/-- ACLR_PERFORM (R238, R259). -/
def execAclrPerform (k : Nat) (s : State) : Host.Outcome State Fault Refusal :=
  .next (if s.coreStill k then s
    else turnStep s k fun m => match m.instr with
      | .aclr .. => true
      | _ => false)
/-- RPOP_PERFORM (R238, R244). -/
def execRpopPerform (k : Nat) (s : State) : Host.Outcome State Fault Refusal :=
  .next (if s.coreStill k then s
    else turnStep s k fun m => match m.instr with
      | .rpop .. => true
      | _ => false)

/-- A faulted Mill command at the head of its queue is started or continued again at once by `eret`: a walk counts its waves anew, a
fault it meets again marks it again, and otherwise its step waits for the arbiter (R262, R288, R400). The rows that had faulted before go
on counting for WALK_ROWS (R286; DESIGN CHOICE, notes/assumptions/35.md). -/
def millReplay (s : State) (k : Nat) (m : Cmd) : State :=
  let m := { m.again with prog := if (walkOf m.instr).isSome then 0 else m.prog
                          mill := { m.mill with waves := 0, steps := 0, recs := [], undo := [] } }
  let s := putHead s k m
  let t := oneStep s k
  if ((t.core k).mq.head?.bind fun e => e.flt).isSome then t else startHead s k

end Sys2Proof.Machine
end

