-- ==== Sys2Proof/Machine/Carter.lean ====
section
/-! DEFINITION. The Carter: copies, conversions and compression, semaphores, and the carve-out of scratch (R149 to R153, R296 to
R315, R334). -/

namespace Sys2Proof.Machine

/-! ### Semaphore instructions (R313, R314) -/

/-- `sacq`: a unit is taken at once, or the context blocks; the acquire waits for the earlier loads of the context (R147, R314). -/
def execSacq (n : BitVec 7) (s : State) : Host.Outcome State Fault Refusal :=
  let k := s.cur.core
  let sc := semScope s k n.toNat
  .next (if (s.my.sems.get {} n.toNat).count = 0 then s.block (.sacq n.toNat)
    else if s.my.loadsPending s.cur.ctx s.now then (takeUnit s k n.toNat).block (.acq sc)
    else acquireNow (takeUnit s k n.toNat) k sc)
/-- `srel`: a release at the scope, then the addition, which comes after the earlier loads of the context too (R191, R314). -/
def execSrel (a : R5) (n : BitVec 7) (sc : Scope) (s : State) : Host.Outcome State Fault Refusal :=
  let j := (s.srcG a).toNat
  .next (if 65535 < j then s.trap .semOver (BitVec.ofNat 32 n.toNat)
    else
      match releaseTry s s.cur.core s.cur.ctx sc with
      | (false, s) => s.stall
      | (true, s) =>
        let m := s.my.sems.get {} n.toNat
        if s.my.loadsPending s.cur.ctx s.now then s.stall
        else if 65535 < m.count + j then s.trap .semOver (BitVec.ofNat 32 n.toNat)
        else
          wake (s.updMy fun x =>
            { x with sems := x.sems.put n.toNat { m with count := m.count + j, dev := m.dev || sc == .dev } }) s.cur.core)
/-- `sget` (R314). -/
def execSget (d : R5) (n : BitVec 7) (clear : Bool) (s : State) : Host.Outcome State Fault Refusal :=
  let m := s.my.sems.get {} n.toNat
  let s := s.setG d (BitVec.ofNat 64 (m.count + m.xf.toNat * 2 ^ 16 + m.ov.toNat * 2 ^ 17 + m.dev.toNat * 2 ^ 18))
  .next (if clear then s.updMy fun x => { x with sems := x.sems.put n.toNat { m with xf := false, ov := false } } else s)

/-! ### Launch (R303, R304) -/

/-- The fields of CPFMT (R301). -/
def CopyRegs.sty (r : CopyRegs) : Ty := Ty.ofCode (Bits r.fmt 3 0)
def CopyRegs.dty (r : CopyRegs) : Ty := Ty.ofCode (Bits r.fmt 7 4)
def CopyRegs.comb (r : CopyRegs) : Nat := Bits r.fmt 12 11
def CopyRegs.cmp (r : CopyRegs) : Bool := Bits r.fmt 14 14 == 1
/-- A type that a combining copy may write (R304). -/
def mayCombine (t : Ty) : Bool :=
  t == .i32 || t == .i64 || t == .n32 || t == .n64 || t == .f64 || t == .f32 || t == .bf16 || t == .f16
/-- The snapshot is malformed (R304). -/
def CopyRegs.malformed (r : CopyRegs) : Bool :=
  14 ≤ Bits r.fmt 3 0 || 14 ≤ Bits r.fmt 7 4 || 5 ≤ Bits r.fmt 10 8 || (r.comb != 0 && !mayCombine r.dty) ||
    (r.comb != 0 && r.cmp) || (r.cmp && Bits r.fmt 39 16 == 0)
/-- A copy of a core names a leaving way of any cluster (R153, R303). -/
def copyLeaves (s : State) (k : Nat) (r : CopyRegs) : Bool :=
  s.clusters.any fun e =>
    match leavingRange e.2.ways with
    | some (lo, hi) => copyMeets k e.1 lo hi r
    | none => false
/-- `cpgo` (R303). -/
def execCpgo (d : R5) (s : State) : Host.Outcome State Fault Refusal :=
  let r := s.atIssue.cp
  .next (match glGate s true with
    | some c => s.trap c
    | none =>
      if r.malformed then s.trap .copyForm
      else if copyLeaves s s.cur.core r then s.trap .wayLeaving
      else if 16 ≤ s.my.cq.length then s.stall
      else
        let t := (s.my.tid + 1) % 65536
        let m := s.newCmd 2 s.my.cq (.cpgo d) [] 0
        (s.updMy fun x =>
          { x.tookIdx 2 m with tid := t, cq := x.cq ++ [{ m with copy := { regs := r, tid := t } }] }).setG d (BitVec.ofNat 64 t))

/-! ### Rows (R305 to R310) -/

/-- The Carter queue of a core is not held, and its head, once the earlier loads of the context that pushed it have been performed
(R183, R185, R310). -/
def copyHead (x : Core) : Option Cmd := if (Tab.find x.holds 2).isSome then none else x.cq.head?.filter fun m => !x.cmdWaits m
/-- The head of the Carter queue is replaced. -/
def putCopy (s : State) (k : Nat) (m : Cmd) : State := s.updCore k fun x => { x with cq := m :: x.cq.drop 1 }
/-- The extents of the box (R299). -/
def CopyRegs.ext (r : CopyRegs) (j : Nat) : Nat := Bits (r.shapeSlot j) 61 48
/-- The number of rows; none when the box is empty (R305). -/
def CopyRegs.rows (r : CopyRegs) : Nat := if r.ext 0 = 0 then 0 else r.ext 1 * r.ext 2 * r.ext 3
/-- The coordinates of one side of element (i0, …, i3) are within its bounds, and the address they give (R305, R306). -/
def sideOf (base : Int) (dims : List (Int × Nat × Int × Int)) (i : List Nat) : Option Int :=
  (dims.zip i).foldl (fun a q =>
    let c : Int := q.1.1 + (q.2 : Int)
    if c < 0 ∨ q.1.2.2.1 ≤ c then none else a.map fun x => x + c * q.1.2.2.2) (some base)

/-- One element of a row: its copy-order index, its source address unless padded, its destination unless suppressed. -/
structure Elem where
  ix : Nat
  src : Option Int
  dst : Option Int
  deriving DecidableEq, Repr
/-- The elements of row r in copy order. -/
def CopyRegs.row (r : CopyRegs) (gran : Bool) (j : Nat) : List Elem :=
  let i1 := j % r.ext 1
  let i2 := j / r.ext 1 % r.ext 2
  let i3 := j / (r.ext 1 * r.ext 2)
  (List.range (r.ext 0)).map fun i0 =>
    { ix := i0 + r.ext 0 * j, src := sideOf (copyBase gran r.src) (r.dims false) [i0, i1, i2, i3],
      dst := sideOf (copyBase gran r.dst) (r.dims true) [i0, i1, i2, i3] }
/-- The bytes at an address lie in canonical space; in physical space on a Granary core (R306). -/
def copyAddr (gran : Bool) (a : Int) (n : Nat) : Bool :=
  if gran then 0 ≤ a && a + n ≤ 2 ^ 50 else -(2 ^ 47) ≤ a && a + n ≤ 2 ^ 47
/-- An address as the core forms it. -/
def vaOf (a : Int) : Nat := (a % (2 ^ 64 : Nat)).toNat

/-- A failing element: cause, copy-order index, address and table level. -/
structure CopyErr where
  cause : Cause
  ix : Nat
  va : Nat
  level : Nat := 0
  write : Bool := false
  deriving DecidableEq, Repr
/-- One address of a row checked (R310). -/
def copyCheck (s : State) (k : Nat) (m : Cmd) (write : Bool) (ix n : Nat) (a : Int) : Except CopyErr (List Part) :=
  if !copyAddr (isGran k) a n then .error { cause := .copyAddr, ix := ix, va := vaOf a, write := write }
  else
    match engCheck s k m.sup write (vaOf a) n with
    | .error (c, va, l) => .error { cause := c, ix := ix, va := va, level := l, write := write }
    | .ok ps => .ok ps
/-- Where a combining copy may write: device memory, scratch or TCM (R310). -/
def mayHoldCombine (p : Part) : Bool :=
  match homeAt p.pa with
  | .device | .scratch .. | .tcm .. => true
  | .istore .. | .host | .peer .. | .regs .. | .nowhere => false

/-- A checked element: the pieces of its source and destination. -/
structure Placed where
  ix : Nat
  src : Option (List Part)
  dst : Option (List Part)
  deriving DecidableEq, Repr
/-- One side of an element checked, when it forms an address. -/
def sideCheck (s : State) (k : Nat) (m : Cmd) (write : Bool) (ix n : Nat) : Option Int → Except CopyErr (Option (List Part))
  | none => .ok none
  | some a =>
    match copyCheck s k m write ix n a with
    | .error e => .error e
    | .ok ps => .ok (some ps)
/-- Every element of a row checked before any write, in copy order, its source before its destination (R310; DEDUCED,
notes/assumptions/36.md). A compressed copy writes no element. -/
def placeRow (s : State) (k : Nat) (m : Cmd) : List Elem → Except CopyErr (List Placed)
  | [] => .ok []
  | e :: t =>
    let r := m.copy.regs
    match sideCheck s k m false e.ix (r.sty.w / 8) e.src with
    | .error x => .error x
    | .ok src =>
      match (if r.cmp then .ok (e.dst.map fun _ => []) else sideCheck s k m true e.ix (r.dty.w / 8) e.dst) with
      | .error x => .error x
      | .ok dst =>
        if r.comb ≠ 0 ∧ (dst.getD []).any (fun p => !mayHoldCombine p) then
          .error { cause := .copyForm, ix := e.ix, va := (((dst.getD []).head?).map fun p => p.va).getD 0, write := true }
        else
          match placeRow s k m t with
          | .error x => .error x
          | .ok l => .ok ({ ix := e.ix, src := src, dst := dst } :: l)

/-- The closed bell that refuses an element's write (R334). -/
def refusedBy (s : State) (k : Nat) : List Part → Option Nat
  | [] => none
  | p :: t =>
    match homeAt p.pa with
    | .tcm j _ | .istore j _ =>
      match closedBell s j k with
      | some b => some b
      | none => refusedBy s k t
    | _ => refusedBy s k t

/-- The element's bits at the source type: CPPAD's low bits when it is padded (R298, R305). -/
def sourceBits (s : State) (k : Nat) (r : CopyRegs) : Option (List Part) → Nat × Bool × State
  | none => (r.pad.toNat % 2 ^ r.sty.w, false, s)
  | some ps =>
    match engReadParts s (tileOf k) ps with
    | (bs, bad, s) => (ofBytes bs, bad, s)

/-- No two elements of the box can meet at the destination: each stride passes over the span of the dimensions below it. -/
def CopyRegs.apart (r : CopyRegs) : Bool :=
  ((List.range 4).foldl (fun (span : Option Nat) j => span.bind fun n =>
    let st := (sBits (r.strdSlot j) 31 0).natAbs
    if r.ext j ≤ 1 then some n else if n ≤ st then some ((r.ext j - 1) * st + n) else none) (some (r.dty.w / 8))).isSome
/-- The writes of a copy arrive as they are made: under ORD 1, and where no order shows (R307). -/
def CopyRegs.inOrder (r : CopyRegs) : Bool := Bits r.fmt 13 13 == 1 || r.apart
/-- A converted value arrives at its destination's home, and is written or combined there (R307). -/
def arrive (s : State) (k : Nat) (r : CopyRegs) (rm : Rm) (ps : List Part) (v : Nat) : State :=
  if r.comb = 0 then engWriteParts s (tileOf k) ps (toBytes (r.dty.w / 8) v)
  else
    let (old, _, s) := engReadParts s (tileOf k) ps
    engWriteParts s (tileOf k) ps (toBytes (r.dty.w / 8) (combineElem r.comb r.dty rm (ofBytes old) v).bits)
/-- A converted value comes to its destination: it is written or combined there, or a closed bell refuses it; its conversion has raised
its flags in both cases. The first refused element in copy order gives the index and the bell (R307, R334; DEDUCED,
notes/assumptions/25.md). -/
def land (k : Nat) (m : Cmd) (s : State) (w : LateWrite) : Cmd × State :=
  let m := { m with fl := m.fl.or w.fl }
  match refusedBy s k w.dst with
  | some b =>
    if m.copy.bell.isSome && decide (m.copy.index ≤ w.ix) then (m, s)
    else ({ m with copy := { m.copy with bell := some b, state := 3, index := w.ix } }, s)
  | none =>
    let dev := !isGran k && w.dst.any fun p => decide (0x1000000 ≤ p.va) && decide (p.va < 2 ^ 47)
    ({ m with copy := { m.copy with dev := m.copy.dev || dev } }, arrive s k m.copy.regs m.copy.rm w.dst w.v)
/-- The units in which a plain write arrives: the whole of a naturally aligned element, else each byte (R160, R307). A combine is one step
for its element. -/
def CopyRegs.units (r : CopyRegs) (w : LateWrite) : List LateWrite :=
  let n := r.dty.w / 8
  if r.comb ≠ 0 ∨ ((w.dst.head?.map fun p => p.va).getD 0) % max 1 n = 0 then [w]
  else
    w.dst.flatMap fun p => (List.range p.n).map fun j =>
      { w with dst := [{ p with va := p.va + j, pa := p.pa + j, off := 0, n := 1 }], v := w.v / 256 ^ (p.off + j) % 256 }
/-- Writes of an ORD 0 copy arrive in a free order: `all` of them, or some, which the order leaves free (R307;
DEDUCED, notes/assumptions/25.md). -/
def settle (s : State) (k : Nat) (m : Cmd) (all : Bool) : Cmd × State :=
  let l := m.copy.late
  if l.isEmpty then (m, s)
  else
    let n := s.freeCtr
    let l := ((l.mapIdx fun i e => (Config.pick (n + i), e)).mergeSort fun a b => a.1 ≤ b.1).map fun e => e.2
    let j := if all then l.length else Config.pick (n + l.length) % (l.length + 1)
    (l.take j).foldl (fun r w => land k r.1 r.2 w)
      ({ m with copy := { m.copy with late := l.drop j } }, { s with freeCtr := n + l.length + 1 })
/-- One element is read, converted, and written or combined at its destination, or is on its way there (R307, R334). A suppressed element is
read, and not converted (R305; DEDUCED, notes/assumptions/25.md). -/
def moveElem (s : State) (k : Nat) (m : Cmd) (e : Placed) : Except Nat (Cmd × State) :=
  let r := m.copy.regs
  match sourceBits s k r e.src with
  | (_, true, _) => .error e.ix
  | (x, false, s) =>
    match e.dst with
    | none => .ok (m, s)
    | some ps =>
      let v := convertElem r.dty r.sty m.copy.rm x
      if r.cmp then
        .ok ({ m with fl := m.fl.or v.fl, copy := { m.copy with stream := m.copy.stream ++ toBytes (r.dty.w / 8) v.bits } }, s)
      else
        let w : LateWrite := { ix := e.ix, dst := ps, v := v.bits, fl := v.fl }
        if r.inOrder then .ok (land k m s w)
        else .ok ({ m with copy := { m.copy with late := m.copy.late ++ r.units w } }, s)
/-- The elements of a row moved in copy order; the index of one whose source holds an uncorrectable error stops them. -/
def moveRow (k : Nat) : List Placed → Cmd → State → Cmd × State × Option Nat
  | [], m, s => (m, s, none)
  | e :: t, m, s =>
    match moveElem s k m e with
    | .error ix => (m, s, some ix)
    | .ok (m, s) => moveRow k t m s


/-! ### Compression (R308, R309) -/

/-- A tile of 2,048 bytes as it is written: header and non-zero blocks (R308). -/
def packTile (tile : List Byte) : List Byte :=
  let t := tile ++ List.replicate (2048 - tile.length) 0
  let live := (List.range 64).filter fun j => ((t.drop (32 * j)).take 32).any fun b => b != 0
  let map := live.foldl (fun n j => n ||| 2 ^ j) 0
  toBytes 8 map ++ toBytes 4 (32 * (1 + live.length)) ++ List.replicate 20 0 ++ live.flatMap fun j => (t.drop (32 * j)).take 32
/-- The tiles that a stream holds whole, and the rest; at the end, a partial tile as well. -/
def takeTiles (last : Bool) : Nat → List Byte → List (List Byte) × List Byte
  | 0, l => ([], l)
  | fuel + 1, l =>
    if 2048 ≤ l.length ∨ (last ∧ !l.isEmpty) then
      let (a, b) := takeTiles last fuel (l.drop 2048)
      (l.take 2048 :: a, b)
    else ([], l)
/-- Tiles written in turn, until one exceeds the limit (R309); a fault of a write gives its cause. -/
def writeTiles (k : Nat) (ix : Nat) : List (List Byte) → Cmd → State → Except CopyErr (Cmd × State)
  | [], m, s => .ok (m, s)
  | t :: ts, m, s =>
    let r := m.copy.regs
    let p := packTile t
    if Bits r.fmt 39 16 * 32 < m.copy.written + p.length then
      .ok ({ m with copy := { m.copy with state := 1, index := m.copy.tiles, refused := p.length, rowsDone := true } }, s)
    else
      let s := engReach s k (vaOf (copyBase (isGran k) r.dst + m.copy.written)) p.length
      match copyCheck s k m true ix p.length (copyBase (isGran k) r.dst + m.copy.written) with
      | .error e => .error e
      | .ok ps =>
        let refused := ps.findSome? fun q => refusedBy s k [q]
        let c := { m.copy with
          written := m.copy.written + p.length, tiles := m.copy.tiles + 1
          dev := m.copy.dev || (!isGran k && ps.any fun q => decide (0x1000000 ≤ q.va) && decide (q.va < 2 ^ 47))
          state := if refused.isSome ∧ m.copy.bell.isNone then 3 else m.copy.state
          index := if refused.isSome ∧ m.copy.bell.isNone then ix else m.copy.index
          bell := m.copy.bell.or refused }
        writeTiles k ix ts { m with copy := c } (engWriteParts s (tileOf k) (ps.filter fun q => (refusedBy s k [q]).isNone) p)

/-! ### Failure and completion (R310, R311, R334) -/

/-- The address of the transfer status record, or none (R302). -/
def CopyRegs.sta (r : CopyRegs) : Option Nat :=
  let a := (sBits r.sem 47 5 * 32)
  if a = 0 then none else some (vaOf a)
/-- The 32 bytes of a transfer status record (R311). -/
def recordBytes (tid st cause ix bytes : Nat) : List Byte :=
  toBytes 4 tid ++ toBytes 4 st ++ toBytes 8 cause ++ toBytes 8 ix ++ toBytes 8 bytes
/-- INFO of a copy's fault: its TID, and for DONE_TARGET the bell with the TID above it (R334, R392). -/
def copyInfo (m : Cmd) (e : CopyErr) : BitVec 32 :=
  BitVec.ofNat 32 (if e.cause = .doneTarget then e.level + m.copy.tid * 2 ^ 16 else m.copy.tid)
/-- A status record is written at its home. A closed guarded bell refuses it as it does every Carter write (R311, R334). -/
def recordWrite (s : State) (k : Nat) (m : Cmd) (a st cause ix bytes : Nat) : Except CopyErr State :=
  let s := engReach s k a 32
  match engCheck s k m.sup true a 32 with
  | .error (c, va, l) => .error { cause := c, ix := 0, va := va, level := l, write := true }
  | .ok ps =>
    match bellBars s k ps with
    | some b => .error { cause := .doneTarget, ix := 0, va := a, level := b, write := true }
    | none => .ok (engWriteParts s (tileOf k) ps (recordBytes m.copy.tid st cause ix bytes))
/-- The copy is marked faulted: its context is told, and the queue is held (R310, R397). -/
def copyFault (s : State) (k : Nat) (m : Cmd) (e : CopyErr) : State :=
  let info := copyInfo m e
  let s := putCopy s k { m with flt := some e.cause, faddr := BitVec.ofNat 64 e.va, info := info }
  let s := s.updCore k fun x => { x with holds := x.holds.put 2 m.ctx }
  s.report k m.ctx { cause := e.cause, info := info, entry := some (96 + m.idx), stamp := m.stamp }
/-- A row fails: the rows before it are complete, the status record receives STATE 2, with the bytes written of a compressed copy, and
the copy is held or ended (R310, R311). -/
def copyFail (s : State) (k : Nat) (m : Cmd) (e : CopyErr) : State :=
  let (m, s) := settle s k m true
  let s := match m.copy.regs.sta with
    | none => s
    | some a =>
      match recordWrite s k m a 2 e.cause.code e.ix (if m.copy.regs.cmp then m.copy.written else 0) with
      | .ok s => s
      | .error x =>
        if x.cause = .doneTarget then s.report k m.ctx { cause := .doneTarget, info := copyInfo m x, stamp := m.stamp } else s
  copyFault s k m e
/-- `eret` resumes a copy held by this cause at its failing row (R310); a copy whose rows are done is retried at its completion
(R311). -/
def copyResumes (m : Cmd) : Bool :=
  m.copy.rowsDone ||
    match m.flt with
    | some .page | some .prot | some .scratchRange | some .phase => true
    | _ => false

/-- The walks that a row's accesses need are made (R135). -/
def rowWalk (s : State) (k : Nat) (r : CopyRegs) (row : List Elem) : State :=
  row.foldl (fun s e =>
    let s := (e.src.map fun a => engReach s k (vaOf a) (r.sty.w / 8)).getD s
    (e.dst.map fun a => engReach s k (vaOf a) (r.dty.w / 8)).getD s) s
/-- The next row of a started copy (R305 to R310; DEDUCED, notes/assumptions/36.md). -/
def rowStep (s : State) (k : Nat) (m : Cmd) : State :=
  let r := m.copy.regs
  let row := r.row (isGran k) m.prog
  let s := rowWalk s k r row
  let ix := r.ext 0 * m.prog
  if r.cmp ∧ r.dst.toNat % 32 ≠ 0 then copyFail s k m { cause := .copyForm, ix := ix, va := r.dst.toNat }
  else
    match placeRow s k m row with
    | .error e => copyFail s k m e
    | .ok l =>
      match moveRow k l m s with
      | (m', t, some ix) =>
        copyFail (if r.cmp then s else t) k { m' with copy := { m'.copy with stream := m.copy.stream } } { cause := .poison, ix := ix, va := 0 }
      | (m', t, none) =>
        let m' := { m' with prog := m.prog + 1 }
        let done := m'.prog == r.rows
        let m' := { m' with copy := { m'.copy with rowsDone := done } }
        if r.cmp then
          let (tiles, rest) := takeTiles done (m'.copy.stream.length / 2048 + 1) m'.copy.stream
          match writeTiles k ix tiles { m' with copy := { m'.copy with stream := rest } } t with
          | .error e => copyFail s k m e
          | .ok (m', t) => putCopy t k m'
        else
          let (m', t) := settle t k m' done
          putCopy t k m'

/-- A copy at the head starts: RM is sampled (R307), and an empty box has no rows (R305). -/
def copyStart (s : State) (m : Cmd) (k : Nat) : Cmd :=
  let r := m.copy.regs
  { m with started := true,
           copy := { m.copy with rm := (Rm.ofCode (Bits r.fmt 10 8)).resolve (s.core k).mstat.rm, rowsDone := r.rows == 0 } }
/-- COPY_ROW: the Carter performs the next row of the copy at a queue's head, which starts with its first row (R296, R310, R351). -/
def execCopyRow (k : Nat) (s : State) : Host.Outcome State Fault Refusal :=
  .next (if s.coreStill k then s
    else
      match copyHead (s.core k) with
      | none => s
      | some m =>
        let m := if m.started then m else copyStart s m k
        let t := putCopy s k m
        s.ifInTurn (if m.copy.rowsDone then t else rowStep t k m))

/-- A copy that is over keeps no change of a carve-out waiting (R153). -/
def copyLeft (s : State) (k : Nat) (m : Cmd) : State :=
  if s.clusters.any fun e => e.2.ways.waits.contains (k, m.copy.tid) then
    { s with clusters := s.clusters.map fun e =>
        (e.1, { e.2 with ways := { e.2.ways with waits := e.2.ways.waits.filter fun w => w != (k, m.copy.tid) } }) }
  else s
/-- Steps 2 and 3 of a completion, and the report of refused elements (R311, R334). -/
def copyFinish (s : State) (k : Nat) (m : Cmd) : State :=
  let r := m.copy.regs
  let s := s.updCore k fun x => { x with cq := x.cq.drop 1 }
  let s := s.orFlags k m.fl
  let n := Bits r.sem 63 58
  let s :=
    if Bits r.sem 57 57 = 1 then s
    else
      let s := if m.copy.state = 1 ∨ m.copy.state = 3 then
          s.updCore k fun x => { x with sems := x.sems.upd {} n fun y => { y with xf := true } }
        else s
      semIncr s k m.ctx n m.copy.dev m.stamp
  let s := match m.copy.bell with
    | some b => s.report k m.ctx { cause := .doneTarget, info := BitVec.ofNat 32 (b + m.copy.tid * 2 ^ 16), stamp := m.stamp }
    | none => s
  copyLeft s k m
/-- A copy whose rows are done completes: the status record, the flags and the semaphore, in this order (R311). -/
def copyEnd (s : State) (k : Nat) (m : Cmd) : State :=
  match m.copy.regs.sta with
  | none => copyFinish s k m
  | some a =>
    let c := m.copy
    match recordWrite s k m a c.state 0 c.index (if c.regs.cmp then c.written + c.refused * 2 ^ 32 else 0) with
    | .error e => copyFault s k m e
    | .ok s => copyFinish s k m
/-- COPY_COMPLETE: the copy at a queue's head completes (R311, R351). -/
def execCopyComplete (k : Nat) (s : State) : Host.Outcome State Fault Refusal :=
  .next (if s.coreStill k then s
    else
      match copyHead (s.core k) with
      | none => s
      | some m => if m.started && m.copy.rowsDone then s.ifInTurn (copyEnd s k m) else s)

/-- A faulted copy is discarded by `eret`: it ends with no record, no flags and no increment (R311, R400). -/
def copyDiscard (s : State) (k : Nat) (m : Cmd) : State :=
  copyLeft (s.updCore k fun x => { x with cq := x.cq.filter fun e => e.idx != m.idx }) k m
/-- A held copy is resumed again at once by `eret`: at its failing row, or at its completion; a fault that it meets again marks it again
(R310, R311, R400). -/
def copyReplay (s : State) (k : Nat) (m : Cmd) : State :=
  let m := m.again
  let s := putCopy s k m
  let t := if m.copy.rowsDone then copyEnd s k m else rowStep s k m
  if ((t.core k).cq.head?.bind fun e => e.flt).isSome then t else s

/-! ### The carve-out (R149, R152, R153) -/

/-- Memory with a range of addresses back at what nothing has written. -/
def memClear (m : List Host.Cell) (lo hi : Nat) : List Host.Cell := m.filter fun c => c.1 < lo || hi ≤ c.1
/-- The lines of a cluster that keep their place when each set keeps `ways` lines, in order of use. -/
def keptLines (ways : Nat) : List Line → List Line → List Line
  | _, [] => []
  | seen, l :: t =>
    if (seen.filter fun x => x.addr % 8192 == l.addr % 8192).length < ways then l :: keptLines ways (l :: seen) t
    else keptLines ways (l :: seen) t
/-- The lines of the ways that join the scratch part leave, their dirty bytes for their homes (R153). -/
def wayJoin (s : State) (cl t : Nat) : State :=
  let keep := keptLines (16 - t) [] (s.cluster cl).cc
  let out := (s.cluster cl).cc.filter fun l => !keep.contains l
  let s := s.updCluster cl fun c => { c with cc := keep, ways := { c.ways with joining := true } }
  out.foldl (fun s l => sendLine s (cl * 8 + l.cores.headD 0) l) s
/-- A change of the carve-out takes effect: what the leaving ways held is lost, and the joining ones read zero in every byte (R153). -/
def wayTake (s : State) (cl t : Nat) : State :=
  let w := (s.cluster cl).ways
  let lo := scratchBase cl + min t w.s * 0x40000
  let hi := scratchBase cl + max t w.s * 0x40000
  let s := { s with mem := memClear s.mem lo hi, poison := s.poison.filter fun x => x * 32 < lo || hi ≤ x * 32 }
  wayBegin (s.updCluster cl fun c => { c with ways := { c.ways with s := t, change := none, waits := [], joining := false } }) cl
/-- The lines that a change has sent to their homes have been written there. -/
def joinWritten (s : State) (cl : Nat) : Bool := (coresOf cl).all fun k => (s.core k).wbOut == 0
/-- WAY_CHANGE_COMPLETE: a change that waits for no copy ends; with ways that join the scratch part, once their dirty lines have been
written at their homes (R153). -/
def execWayChangeComplete (cl : Nat) (s : State) : Host.Outcome State Fault Refusal :=
  .next (let w := (s.cluster cl).ways
    match w.change with
    | some t =>
      if !w.waits.isEmpty || s.io.frz then s
      else
        let s := if w.s < t ∧ !w.joining then wayJoin s cl t else s
        if w.s < t ∧ !joinWritten s cl then s else wayTake s cl t
    | none => s)
/-- WAY_SAMPLE: the end of a sampling interval (R152). -/
def execWaySample (cl : Nat) (s : State) : Host.Outcome State Fault Refusal :=
  .next (let w := (s.cluster cl).ways
    if w.auto && !s.io.frz then
      let t := if w.a < w.g * 32 ∧ w.min < w.s then w.s - 1 else if w.l * 128 < w.a ∧ w.s < w.max then w.s + 1 else w.tgt
      wayBegin (s.updCluster cl fun c => { c with ways := { c.ways with tgt := t, a := 0, l := 0, g := 0 } }) cl
    else s)

end Sys2Proof.Machine
end

