-- ==== Sys2Proof/Machine/Exchange.lean ====
section
/-! DEFINITION. Domains and supersteps, the exchange lane, bells (R35 to R38, R123, R199, R316 to R335, R357). -/

namespace Sys2Proof.Machine

/-! ### Bells (R123, R332, R333, R335) -/

/-- A blocked context takes a precise trap at its waiting instruction. -/
def trapBlocked (s : State) (k c : Nat) (z : Cause) : State :=
  (s.updCtx k c fun x => { x with run := .ready, since := none }).takeTrap k c { cause := z }
/-- The fields of an arming operand are outside their limits (R332). -/
def bellBad (g : Word) : Bool :=
  Bits g 18 16 == 0 || 5 < Bits g 18 16 || Bits g 31 20 != 0 || Bits g 63 58 != 0 || Bits g 49 41 == 0 || 384 < Bits g 49 41 ||
    384 < Bits g 40 32 + Bits g 49 41
/-- `bell` (R332; DEDUCED, notes/assumptions/38.md). -/
def execBell (a : R5) (n : BitVec 7) (s : State) : Host.Outcome State Fault Refusal :=
  let g := s.srcG a
  let b := s.my.bells.get {} n.toNat
  let k := s.cur.core
  .next (if Bits g 15 0 = 0 then
      let s := s.updMy fun x => { x with bells := x.bells.put n.toNat ({} : Bell) }
      (List.range 11).foldl (fun s c => if (s.ctx k c).run = .blocked (.bwait n.toNat) then trapBlocked s k c .bellForm else s) s
    else if (b.armed ∧ 0 < b.count) ∨ bellBad g then s.trap .bellForm
    else
      let b : Bell :=
        { count := Bits g 15 0, tgt := Bits g 15 0, armed := true, scope := Scope.ofCode (Bits g 18 16),
          guard := Bits g 19 19 == 1, mbase := Bits g 40 32, mcnt := Bits g 49 41, cmask := Bits g 57 50 }
      s.updMy fun x => { x with bells := x.bells.put n.toNat b })
/-- `bwait`: it blocks until the count is 0; the acquire waits for the earlier loads of the context (R147, R198, R335). -/
def execBwait (n : BitVec 7) (s : State) : Host.Outcome State Fault Refusal :=
  let b := s.my.bells.get {} n.toNat
  .next (if !b.armed then s.trap .bellForm
    else if b.count ≠ 0 then s.block (.bwait n.toNat)
    else if s.my.loadsPending s.cur.ctx s.now then s.block (.acq b.scope)
    else acquireNow s s.cur.core b.scope)

/-- The narrowest of core, clu, die and dev that includes two cores (R333). -/
def scopeOf (k j : Nat) : Scope :=
  if k = j then .core else if !isGran k && !isGran j && clusterOf k == clusterOf j then .clu
  else if dieOf k = dieOf j then .die else .dev
/-- `done` (R123): the target is the issuing core, or the core that gA names. The decrement comes after the release and after the earlier
accesses of the core. -/
def execDone (a : R5) (n : BitVec 7) (s : State) : Host.Outcome State Fault Refusal :=
  let g := s.srcG a
  let k := s.cur.core
  let own := a.toNat = 0
  let j := if own then k else Bits g 8 0 * 8 + Bits g 11 9
  .next (match glGate s true with
    | some c => s.trap c
    | none =>
      if !own ∧ (Bits g 63 12 ≠ 0 ∨ 384 ≤ Bits g 8 0) then s.trap .targetRange
      else if j ≠ k ∧ !isGran k ∧ (s.cluster (clusterOf k)).computePhase then s.trap .phase
      else
        match releaseTry s k s.cur.ctx (scopeOf k j) with
        | (false, s) => s.stall
        | (true, s) =>
          if s.my.accessesPending s.cur.ctx s.now then s.stall
          else s.submit (tileOf k) (tileOf j) .control (.done j n.toNat k s.cur.ctx s.now))

/-- A core is a member of a bell's group (R332). -/
def Bell.member (b : Bell) (k : Nat) : Bool :=
  !isGran k && b.mbase ≤ clusterOf k && clusterOf k < b.mbase + b.mcnt && b.cmask.testBit (lcoreOf k)
/-- A `done` is applied at the bell unit of its target (R333). -/
def applyDone (s : State) (k n sender ctx stamp : Nat) : State :=
  let b := (s.core k).bells.get {} n
  if !b.armed ∨ !b.member sender ∨ b.count = 0 then
    s.submit (tileOf k) (tileOf sender) .reply
      (.report sender ctx { cause := .doneTarget, info := BitVec.ofNat 32 n, stamp := stamp })
  else wake (s.updCore k fun x => { x with bells := x.bells.put n { b with count := b.count - 1 } }) k
/-- The message is a `done` to a core. -/
def doneFor (k : Nat) : Body → Bool
  | .done j .. => j == k
  | .access .. | .answer .. | .wake .. | .report .. | .lane .. | .ack .. => false
/-- DONE_ARRIVAL: the oldest `done` that has reached a core's bell unit is applied (R333). -/
def execDoneArrival (k : Nat) (s : State) : Host.Outcome State Fault Refusal :=
  .next (if s.tileStopped (tileOf k) then s
    else
      match (s.iface (tileOf k)).ctl.find? (doneFor k) with
      | some (.done j n sender ctx stamp) =>
        applyDone (s.updIface (tileOf k) fun x => { x with ctl := x.ctl.erase (.done j n sender ctx stamp) }) k n sender ctx stamp
      | _ => s)

/-! ### Domains (R35 to R38) -/

/-- A cluster has arrived at the barrier of its level: every live context is blocked in `sstep` (R320)
(DEDUCED, notes/assumptions/38.md). -/
def arrived (s : State) (level cl : Nat) : Bool :=
  (liveContexts s cl).all fun e => (s.ctx e.1 e.2).run == .blocked .sstep && (s.cluster cl).domain.level == level

/-! ### Slot tables and lane routes (R324 to R327, R357) -/

/-- The slot-table entries of a cluster as they stand in its scratch, or none where the table is invalid (R324, R325). -/
def readTable (s : State) (cl : Nat) : Option (List SlotEntry) :=
  let c := s.cluster cl
  let off := c.phase.tbl * 32
  if c.phase.nent ≠ 0 ∧ c.ways.s * 0x40000 < off + 8 * c.phase.nent then none
  else
    let ws := (List.range c.phase.nent).map fun i => s.readN (scratchBase cl + off + 8 * i) 8
    let es : List SlotEntry := ws.map fun w => { dst := w / 2 ^ 23 % 512, kind := w / 2 ^ 22 % 2, beats := w / 2 ^ 19 % 8, slot := w % 2 ^ 16 }
    let fit := (es.zip (es.drop 1)).all fun p => p.1.slot < p.2.slot && p.1.slot + p.1.beats ≤ p.2.slot
    let good := (ws.zip es).all fun (w, e) =>
      w / 2 ^ 32 == 0 && w / 2 ^ 16 % 8 == 0 && 1 ≤ e.beats && e.beats ≤ 5 && e.dst < 384 && (s.cluster e.dst).part == c.part
    if fit && good then some es else none

/-- The links of the dimension-order route from a tile, as router and port (R327). -/
def laneLinks : Nat → Nat → Nat → List (Nat × Nat)
  | 0, _, _ => []
  | fuel + 1, t, u =>
    match posOf t, posOf u with
    | (d, c, r), (d', c', r') =>
      let p := if 16 * d + c < 16 * d' + c' then some 1 else if 16 * d' + c' < 16 * d + c then some 3
        else if r < r' then some 2 else if r' < r then some 0 else none
      match p with
      | none => []
      | some p =>
        match neighbour t p with
        | some v => (t, p) :: laneLinks fuel v u
        | none => []
/-- The route of a packet between two clusters. -/
def laneRoute (a b : Nat) : List (Nat × Nat) := laneLinks 128 a b
/-- The beats of a packet with a payload of p bytes (R324). -/
def beatsOf (p : Nat) : Nat := (32 + p + 63) / 64
/-- Packets of two clusters meet on one link in one lane cycle: first cycles (as counted from now), beats and routes (R327). -/
def lanesMeet (t : Int) (b : Nat) (l : List (Nat × Nat)) (t' : Int) (b' : Nat) (l' : List (Nat × Nat)) : Bool :=
  (l.mapIdx fun i x => (i, x)).any fun (i, x) => (l'.mapIdx fun j y => (j, y)).any fun (j, y) =>
    x == y && t + i < t' + j + b' && t' + j < t + i + b
/-- XCOL is set in a cluster. -/
def setXcol (s : State) (cl : Nat) : State := s.updCluster cl fun c => { c with phase := { c.phase with xcol := true } }
/-- The sources and destinations of the packets of other tables that a packet of a cluster meets on the lane (R327). -/
def metBy (s : State) (src slot n : Nat) (links : List (Nat × Nat)) : List Nat :=
  (List.range 384).flatMap fun j =>
    if j = src ∨ !(s.cluster j).phase.xp then []
    else
      ((s.cluster j).table.filter fun e =>
        e.sent != 0 && lanesMeet ((slot : Int) - (s.cluster src).phase.cur) (beatsOf n) links ((e.slot : Int) - (s.cluster j).phase.cur)
          e.sent (laneRoute j e.dst)).flatMap fun e => [j, e.dst]
/-- A packet leaves a cluster in a slot. A route over a failed link takes it to the open plane, which sets XCOL in its source and its
destination; on the lane XCOL is set, where it meets packets of other tables, in the source and the destination of each (R327, R357;
DEDUCED, notes/assumptions/56.md). -/
def emitLane (s : State) (p : LanePkt) (slot n : Nat) : State :=
  let links := laneRoute p.src p.dst
  let leave := fun (s : State) (beats : Nat) =>
    s.updCluster p.src fun c => { c with table := c.table.map fun e => if e.slot = slot then { e with taken := true, sent := beats } else e }
  if links.any fun l => linkFailed s l.1 l.2 then ([p.src, p.dst].foldl setXcol (leave s 0)).submit p.src p.dst .request (.lane p)
  else
    let met := metBy s p.src slot n links
    let s := leave s (beatsOf n)
    let s := if met.isEmpty then s else (met ++ [p.src, p.dst]).foldl setXcol s
    s.updCluster p.dst fun c => { c with lane := c.lane ++ [p] }

/-! ### Gathers at the beginning of a phase (R330, R331) -/

/-- The size of a gathered element. -/
def elemSize (esz : Nat) : Nat := 4 * 2 ^ esz
/-- The reply entry of an owner's table for a request (R331). -/
def replyEntry (c : Cluster) (g : Gather) : Option SlotEntry :=
  let n := g.req.data.length / 4
  match c.table.find? fun e => e.slot == g.req.slot && e.kind == 1 && e.dst == g.req.src with
  | some e => if 64 * e.beats < 32 + n * elemSize g.req.esz then none else some e
  | none => none
/-- The values of a request as they stand in the owner's scratch, with zeros for those out of range, and how many (R331). -/
def gatherValues (s : State) (cl : Nat) (g : Gather) : List Byte × Nat :=
  let e := elemSize g.req.esz
  let lim := (s.cluster cl).ways.s * 0x40000
  let at' := (List.range (g.req.data.length / 4)).map fun i => g.req.obase + ofBytes ((g.req.data.drop (4 * i)).take 4) * e
  (at'.flatMap fun a => if lim < a + e then List.replicate e 0 else s.read (scratchBase cl + a) e,
    (at'.filter fun a => lim < a + e).length)
/-- A fault of the exchange lane is told to a context of another cluster. -/
def laneReport (s : State) (from' k c stamp : Nat) (z : Cause) (info : BitVec 32) : State :=
  s.submit from' (tileOf k) .reply (.report k c { cause := z, info := info, stamp := stamp })
/-- Pending requests are served when the owner's exchange phase begins (R331). -/
def serveGathers (s : State) (cl : Nat) : State :=
  (s.cluster cl).gathers.foldl (fun s g =>
    match replyEntry (s.cluster cl) g with
    | some _ =>
      let (v, z) := gatherValues s cl g
      s.updCluster cl fun c => { c with gathers := c.gathers.map fun x => if x = g then { x with values := some v, zeros := z } else x }
    | none =>
      laneReport (s.updCluster cl fun c => { c with gathers := c.gathers.erase g }) cl g.req.core g.req.ctx g.req.stamp .xslot
        (BitVec.ofNat 32 g.req.slot)) s

/-! ### The superstep barrier (R199, R320 to R322) -/

/-- `sstep`: the release of R199 and, as a `fence.sc` does, the wait for every earlier access; then the context blocks (R199, R320). -/
def execSstep (s : State) : Host.Outcome State Fault Refusal :=
  .next (match releaseTry s s.cur.core s.cur.ctx .dom with
    | (false, s) => s.stall
    | (true, s) => if s.my.opsPending s.cur.ctx s.now then s.stall else s.block .sstep)

/-- The packets of the exchange lane that the open plane carries (R357). -/
def laneInNet (s : State) : List LanePkt :=
  let of' := fun (m : Msg) => match m.body with
    | .lane p => [p]
    | .access .. | .answer .. | .wake .. | .done .. | .report .. | .ack .. => []
  (s.net.ifaces.flatMap fun e => (e.2.out ++ e.2.inbox).flatMap of') ++
    (s.net.routers.flatMap fun e => (e.2.pkts.map (fun p => p.msg) ++ e.2.spill.map Prod.snd ++ e.2.reserved.toList).flatMap of') ++
    (s.net.byway.map fun b => of' b.2).getD []
/-- The command is a send or request of the exchange lane. -/
def isSend (m : Cmd) : Bool :=
  match m.instr with
  | .xsend .. | .greq .. => true
  | _ => false
/-- What the end of an exchange phase still waits for in a member: its slots, its sends and replies, and the collectives pushed during the
phase (R321). CUR, which stops at 65,535, has passed a last lane cycle beyond that when it stands there (DEDUCED,
notes/assumptions/56.md). -/
def exchangeDone (s : State) (cl : Nat) : Bool :=
  let c := s.cluster cl
  (c.table.all fun e => min 65535 (e.slot + e.beats) ≤ c.phase.cur) && !(c.gathers.any fun g => g.values.isSome) &&
    (coresOf cl).all fun k => (s.core k).xq.all fun m => decide (m.stamp < c.phase.begun)
/-- The packets of a phase that are on the lane or on the open plane, and so not written at their destination yet (R321, R357). -/
def lanePackets (s : State) : List LanePkt := (s.clusters.flatMap fun e => e.2.lane) ++ laneInNet s
/-- A member's phase turns, and its held writes take effect (R316, R318, R321). -/
def turnPhase (s : State) (cl : Nat) (bulk : Bool) : State :=
  let c := s.cluster cl
  let ending := c.phase.xp
  let s :=
    if !bulk then s
    else if ending then
      s.updCluster cl toCompute
    else
      let t := readTable s cl
      s.updCluster cl fun c =>
        { c with table := t.getD [], phase := { c.phase with xp := true, cur := 0, terr := c.phase.terr || t.isNone, begun := s.stamp + 2 } }
  match (s.cluster cl).domainPend with
  | some d => (takeDomain (s.rearm cl) cl d).rearm cl
  | none => s
/-- The contexts blocked in `sstep` at a cluster complete it with the acquire of R199. -/
def stepContexts (s : State) (cl : Nat) : State :=
  (liveContexts s cl).foldl (fun s e =>
    if (s.ctx e.1 e.2).run = .blocked .sstep then completeWait (acquireNow s e.1 .dom) e.1 e.2 else s) s
/-- The members of a domain disagree on identifiers above its level or on its mode (R38). -/
def domainClash (s : State) (cl : Nat) (ms : List Nat) : Bool :=
  let d := (s.cluster cl).domain
  ms.any fun j =>
    let e := (s.cluster j).domain
    e.mode.testBit d.level != d.mode.testBit d.level ||
      (List.range 4).any fun l => d.level < l && domainId e j l != domainId d cl l
/-- SUPERSTEP_COMPLETE: the barrier of a cluster's domain completes, or raises DOMAIN_FORM (R38, R321, R322). -/
def execSuperstepComplete (cl : Nat) (s : State) : Host.Outcome State Fault Refusal :=
  let d := (s.cluster cl).domain
  let ms := domainOfCluster s cl
  let bulk := ms.any fun j => (s.cluster j).domain.mode.testBit d.level
  let xp := ms.any fun j => (s.cluster j).phase.xp
  .next (if s.clusterStill cl ∨ 384 ≤ cl ∨ (liveContexts s cl).isEmpty ∨ !(ms.all fun j => arrived s d.level j) then s
    else if bulk && domainClash s cl ms then
      (ms.flatMap (liveContexts s)).foldl (fun s e =>
        if (s.ctx e.1 e.2).run = .blocked .sstep then trapBlocked s e.1 e.2 .domainForm else s) s
    else if bulk && xp && !(ms.all (exchangeDone s) && (lanePackets s).all fun p => !ms.contains p.src && !ms.contains p.dst) then s
    else
      let begins := ms.filter fun j => bulk && !(s.cluster j).phase.xp
      let s := ms.foldl (fun s j => turnPhase s j bulk) s
      let s := (begins.filter fun j => (s.cluster j).phase.xp).foldl serveGathers s
      ms.foldl stepContexts s)

/-! ### Sends (R328 to R331) -/

/-- An address of a core is in its local memory (R317). -/
def isLocal (k va : Nat) : Bool :=
  match fixedWindow k va with
  | some pa => localTo k pa
  | none => false
/-- The checks of `xsend` and `greq` after the queue has room, in the order of R328: the entry, or the cause. -/
def sendCheck (s : State) (ga gb : Word) (slot p : Nat) (bad : Bool) : Except Cause SlotEntry :=
  let c := s.cluster (clusterOf s.cur.core)
  if !c.domain.bulk || !c.phase.xp then .error .phase
  else if bad then .error .xslot
  else
    match c.table.find? fun e => e.slot == slot && e.kind == 0 with
    | none => .error .xslot
    | some e =>
      if e.taken ∨ slot < c.phase.cur + 4 ∨ 64 * e.beats < 32 + p then .error .xslot
      else if ga.toNat % 4 ≠ 0 ∨ p % 4 ≠ 0 ∨ Bits gb 21 0 % 4 ≠ 0 ∨ Bits gb 53 32 % 4 ≠ 0 then .error .align
      else if (pieces ga.toNat p).any fun q => !isLocal s.cur.core q.1 then .error .page
      else .ok e
/-- `xsend` and `greq` claim their entry and enter the exchange queue (R328), once the acquires of the context have been performed and no
cache maintenance of it is left for what they read (R178, R191). -/
def State.send (s : State) (i : Instr) (gd ga gb : Word) (p : Nat) (bad : Bool) : State :=
  match glGate s true with
  | some c => s.trap c
  | none =>
    if !s.my.wb.isEmpty ∨ 16 ≤ s.my.xq.length ∨ s.my.acquiring s.cur.ctx s.now ∨ maintHold s ga.toNat p [] then s.stall
    else
      match sendCheck s ga gb (Bits gd 15 0) p bad with
      | .error c => s.trap c
      | .ok e =>
        let m := s.newCmd 3 s.my.xq i [ga, gb, gd] 0
        let s := s.updMy fun x => { x.tookIdx 3 m with xq := x.xq ++ [{ m with slot := e.slot, dst := e.dst }] }
        s.updCluster (clusterOf s.cur.core) fun c =>
          { c with table := c.table.map fun f => if f = e then { f with taken := true } else f }
/-- `xsend` (R328). -/
def execXsend (d a b : R5) (s : State) : Host.Outcome State Fault Refusal :=
  let gd := s.srcG d
  let gb := s.srcG b
  let n := Bits gd 24 16
  .next (s.send (.xsend d a b) gd (s.srcG a) gb n (256 < n || Bits gd 63 25 != 0 || Bits gb 63 22 != 0))
/-- `greq` (R328). -/
def execGreq (d a b : R5) (s : State) : Host.Outcome State Fault Refusal :=
  let gd := s.srcG d
  let gb := s.srcG b
  let n := Bits gd 22 16
  let esz := Bits gd 26 24
  .next (s.send (.greq d a b) gd (s.srcG a) gb (4 * n)
    (n == 0 || 64 < n || 4 < esz || Bits gd 23 23 != 0 || Bits gd 63 27 != 0 || Bits gb 31 22 != 0 || Bits gb 63 54 != 0 ||
      256 < n * elemSize esz))

/-- The sends of a core's exchange queue that no collective before them holds back, finished or faulted (R195, R310, R339;
DEDUCED, notes/assumptions/37.md). -/
def freeCmds (x : Core) : List Cmd := x.xq.takeWhile isSend
/-- A send of a core to its own cluster, from before a stamp, has left and is not written: a later send may read what it writes
(R195, R327). -/
def ownSendOut (s : State) (k stamp : Nat) : Bool :=
  (lanePackets s).any fun q =>
    q.core == k && decide (q.stamp < stamp) && !q.request && !q.reply && q.dst == clusterOf k
/-- The next send of a cluster whose slot has come, and whose source no earlier send of its core has yet to write: the core and the command
(R195, R329; DEDUCED, notes/assumptions/37.md). -/
def dueSend (s : State) (cl : Nat) : Option (Nat × Cmd) :=
  ((coresOf cl).flatMap fun k =>
    ((freeCmds (s.core k)).filter fun m => decide (m.slot ≤ (s.cluster cl).phase.cur) && !ownSendOut s k m.stamp).map fun m => (k, m)).foldl
    (fun (o : Option (Nat × Cmd)) e =>
      match o with
      | none => some e
      | some b => if e.2.slot < b.2.slot then some e else o) none
/-- The packet of a send with its bytes (R328 to R330). -/
def packetOf (k : Nat) (m : Cmd) (data : List Byte) : LanePkt :=
  let gb := (m.vals[1]?).getD 0
  let gd := (m.vals[2]?).getD 0
  { src := clusterOf k, dst := m.dst, core := k, ctx := m.ctx, stamp := m.stamp, slot := m.slot, off := Bits gb 21 0,
    obase := Bits gb 53 32, esz := Bits gd 26 24, data := data,
    request := match m.instr with
      | .greq .. => true
      | _ => false }
/-- The payload of a send or request in bytes (R328). -/
def Cmd.payload (m : Cmd) : Nat :=
  let gd := (m.vals[2]?).getD 0
  match m.instr with
  | .greq .. => 4 * Bits gd 22 16
  | _ => Bits gd 24 16
/-- XSEND_EMIT: at its slot a send leaves the exchange queue, with the bytes read at their home (R329)
(DEDUCED, notes/assumptions/37.md). -/
def execXsendEmit (cl : Nat) (s : State) : Host.Outcome State Fault Refusal :=
  .next (if s.clusterStill cl ∨ !(s.cluster cl).phase.xp then s
    else
      match dueSend s cl with
      | none => s
      | some (k, m) =>
        let s := s.updCore k fun x => { x with xq := x.xq.filter fun e => e.idx != m.idx }
        let s := engWalk s k ((m.vals[0]?).getD 0).toNat m.payload
        match engCheck s k m.sup false ((m.vals[0]?).getD 0).toNat m.payload with
        | .error (c, _, _) => s.report k m.ctx { cause := c, stamp := m.stamp }
        | .ok ps =>
          match engReadParts s (tileOf k) ps with
          | (_, true, s) => s.report k m.ctx { cause := .poison, stamp := m.stamp }
          | (bs, false, s) => emitLane s (packetOf k m bs) m.slot m.payload)

/-- The bytes of a send that a core made before a stamp are on the lane or on the open plane (R195). What a gather request brings in a later
superstep is not among them (R331; DEDUCED, notes/assumptions/37.md). -/
def sendsOut (s : State) (k stamp : Nat) : Bool :=
  (lanePackets s).any fun q => q.core == k && decide (q.stamp < stamp) && !q.request && !q.reply
/-- An earlier send of the core of a packet has not been written at its destination (R195). -/
def sendBefore (s : State) (p : LanePkt) : Bool :=
  ((s.core p.core).xq.any fun m => decide (m.stamp < p.stamp) && match m.instr with
    | .xsend .. => true
    | _ => false) || sendsOut s p.core p.stamp
/-- A packet of the lane may be written at its destination: the sends before it in its queue are, and the earlier loads of the context that
pushed its command have been performed (R183, R185, R195). -/
def mayLand (s : State) (p : LanePkt) : Bool := !(s.core p.core).loadsPending p.ctx p.stamp && (p.reply || !sendBefore s p)
/-- The oldest packet of a kind at a cluster leaves the lane. -/
def takeLane (s : State) (cl : Nat) (f : LanePkt → Bool) : Option (LanePkt × State) :=
  ((s.cluster cl).lane.find? f).map fun p => (p, s.updCluster cl fun c => { c with lane := c.lane.erase p })
/-- The scratch part of a cluster in bytes (R149). -/
def scratchBytes (s : State) (cl : Nat) : Nat := (s.cluster cl).ways.s * 0x40000
/-- XSEND_DELIVERY: the bytes of a send are written at its destination, those of one core in queue order (R195, R329). -/
def execXsendDelivery (cl : Nat) (s : State) : Host.Outcome State Fault Refusal :=
  .next (if s.tileStopped cl then s
    else
      match takeLane s cl fun p => !p.request && !p.reply && mayLand s p with
      | none => s
      | some (p, s) =>
        if p.data.length ≠ 0 ∧ scratchBytes s cl < p.off + p.data.length then laneReport s cl p.core p.ctx p.stamp .scratchRange 0
        else s.write (scratchBase cl + p.off) p.data)
/-- GATHER_REQUEST_ARRIVAL: the owner keeps a request, or refuses it when it keeps 256 (R330). -/
def execGatherRequestArrival (cl : Nat) (s : State) : Host.Outcome State Fault Refusal :=
  .next (if s.tileStopped cl then s
    else
      match takeLane s cl fun p => p.request with
      | none => s
      | some (p, s) =>
        if 256 ≤ (s.cluster cl).gathers.length then laneReport s cl p.core p.ctx p.stamp .xslot (BitVec.ofNat 32 p.slot)
        else s.updCluster cl fun c => { c with gathers := c.gathers ++ [{ req := p }] })
/-- GATHER_REPLY_EMIT: at its reply slot an owner sends the values that it took (R331). -/
def execGatherReplyEmit (cl : Nat) (s : State) : Host.Outcome State Fault Refusal :=
  let c := s.cluster cl
  .next (if s.clusterStill cl ∨ !c.phase.xp then s
    else
      match c.gathers.find? fun g => g.values.isSome && g.req.slot ≤ c.phase.cur with
      | none => s
      | some g =>
        let v := g.values.getD []
        emitLane (s.updCluster cl fun c => { c with gathers := c.gathers.erase g })
          { g.req with src := cl, dst := g.req.src, request := false, reply := true, data := v, zeros := g.zeros } g.req.slot v.length)
/-- GATHER_REPLY_DELIVERY: the requester writes the values; GERR is set for each zero, and elements beyond its scratch part are left
out and reported (R331). -/
def execGatherReplyDelivery (cl : Nat) (s : State) : Host.Outcome State Fault Refusal :=
  .next (if s.tileStopped cl then s
    else
      match takeLane s cl fun p => p.reply && mayLand s p with
      | none => s
      | some (p, s) =>
        let e := elemSize p.esz
        let n := p.data.length / e
        let lim := scratchBytes s cl
        let s := (List.range n).foldl (fun s i =>
          if lim < p.off + (i + 1) * e then s else s.write (scratchBase cl + p.off + i * e) ((p.data.drop (i * e)).take e)) s
        let s := s.updCluster cl fun c => { c with phase := { c.phase with gerr := c.phase.gerr || p.zeros != 0 } }
        match (List.range n).find? fun i => lim < p.off + (i + 1) * e with
        | some i => laneReport s cl p.core p.ctx p.stamp .scratchRange (BitVec.ofNat 32 (i * 2 ^ 16))
        | none => s)

end Sys2Proof.Machine
end

