-- ==== Sys2Proof/Machine/Coll.lean ====
section
/-! DEFINITION. Collectives (R336 to R339). -/

namespace Sys2Proof.Machine

/-! ### Issue (R317, R336) -/

/-- A collective at issue (R336). -/
def State.coll (s : State) (i : Instr) (a b : R5) : State :=
  let ga := s.srcG a
  let gb := s.srcG b
  match glGate s true with
  | some c => s.trap c
  | none =>
    if (s.cluster (clusterOf s.cur.core)).computePhase then s.trap .phase
    else if 128 ≤ ga.toNat then s.trap .collForm
    else if gb.toNat % 32 ≠ 0 then s.trap .align
    else if 16 ≤ s.my.xq.length then s.stall
    else
      let m := s.newCmd 3 s.my.xq i [ga, gb] 0
      s.updMy fun x => { x.tookIdx 3 m with xq := x.xq ++ [m] }
/-- `coll.bar` (R336). -/
def execCollBar (a b : R5) (s : State) : Host.Outcome State Fault Refusal := .next (s.coll (.collBar a b) a b)
/-- `coll.ag` (R336). -/
def execCollAg (a b : R5) (s : State) : Host.Outcome State Fault Refusal := .next (s.coll (.collAg a b) a b)
/-- `coll.rs` (R336). -/
def execCollRs (a b : R5) (op : BitVec 2) (t : Ty) (s : State) : Host.Outcome State Fault Refusal :=
  .next (s.coll (.collRs a b op t) a b)
/-- `coll.a2a` (R336). -/
def execCollA2a (a b : R5) (s : State) : Host.Outcome State Fault Refusal := .next (s.coll (.collA2a a b) a b)

/-! ### Gathering (R337, R338) -/

/-- The operation of a collective: its code, and for a reduce-scatter the combine and the type. -/
def collOp : Instr → Option (Nat × Nat × Ty)
  | .collBar .. => some (0, 0, .i8)
  | .collAg .. => some (1, 0, .i8)
  | .collRs _ _ op t => some (2, op.toNat, t)
  | .collA2a .. => some (3, 0, .i8)
  | _ => none
/-- The exchange queue of a core is not held, and its head. -/
def xHead (x : Core) : Option Cmd := if (Tab.find x.holds 3).isSome then none else x.xq.head?
/-- The head of the exchange queue is replaced. -/
def putX (s : State) (k : Nat) (m : Cmd) : State := s.updCore k fun x => { x with xq := m :: x.xq.drop 1 }
/-- A command of an exchange queue is marked faulted: its context is told, and the queue is held (R310, R339). -/
def collFault (s : State) (k : Nat) (stamp : Nat) (c : Cause) (va : Nat) (info : BitVec 32) : State :=
  match (s.core k).xq.find? fun m => m.stamp == stamp with
  | none => s
  | some m =>
    let s := s.updCore k fun x =>
      { x with xq := x.xq.map fun e => if e.stamp = stamp then { e with flt := some c, faddr := BitVec.ofNat 64 va, info := info } else e
               holds := x.holds.put 3 m.ctx }
    s.report k m.ctx { cause := c, info := info, entry := some (112 + m.idx), stamp := stamp }

/-- Bytes read at their home for a command of an exchange queue, or the cause, address and level. -/
def collRead (s : State) (k : Nat) (sup : Bool) (va n : Nat) : Except (Cause × Nat × Nat) (List Byte × State) :=
  let s := engReach s k va n
  match engCheck s k sup false va n with
  | .error e => .error e
  | .ok ps =>
    match engReadParts s (tileOf k) ps with
    | (bs, false, s) => .ok (bs, s)
    | (_, true, _) => .error (.poison, va, 0)

/-- The entries of a group: cluster and logical core, and whether another bit is set (R337). -/
def groupOf (bs : List Byte) : List (Nat × Nat) × Bool :=
  let ws := (List.range (bs.length / 4)).map fun i => ofBytes ((bs.drop (4 * i)).take 4)
  (ws.map fun w => (w % 512, w / 512 % 8), ws.any fun w => w / 4096 != 0)
/-- A collective record with its group, read when the command starts (R337). -/
def readColl (s : State) (k : Nat) (m : Cmd) : Except (Cause × Nat × Nat) (Coll × State) :=
  match collRead s k m.sup ((m.vals[1]?).getD 0).toNat 64 with
  | .error e => .error e
  | .ok (r, s) =>
    let f := fun (o n : Nat) => ofBytes ((r.drop o).take n)
    let n := f 0x18 4
    match (if 2 ≤ n ∧ n ≤ 384 then collRead s k m.sup (f 0x20 8) (4 * n) else .ok ([], s)) with
    | .error e => .error e
    | .ok (g, s) =>
      .ok ({ core := k, ctx := m.ctx, stamp := m.stamp, part := (s.cluster (clusterOf k)).part, src := f 0 8, dst := f 8 8,
             bytes := f 0x10 8, nmem := n, rank := f 0x1C 4, group := (groupOf g).1, tag := f 0x28 4,
             reserved := (r.drop 0x2C).any (fun b => b != 0) || (groupOf g).2, instr := m.instr,
             rm := Rm.resolve .dflt (s.core k).mstat.rm }, s)

/-- A member's record does not stand with the first one's, or is wrong by itself (R337, R338)
(DEDUCED, notes/assumptions/39.md). -/
def collBad (s : State) (b c : Coll) : Bool :=
  let size := match collOp c.instr with
    | some (2, _, t) => t.w / 8
    | _ => 1
  collOp c.instr != collOp b.instr || c.bytes != b.bytes || c.nmem != b.nmem || c.group != b.group || c.reserved ||
    c.nmem < 2 || 384 < c.nmem || c.bytes == 0 || 2 ^ 32 < c.bytes || c.bytes % size != 0 ||
    c.group.any (fun e => 384 ≤ e.1 || (s.cluster e.1).part != c.part) ||
    c.group[c.rank]? != some (clusterOf c.core, lcoreOf c.core)

/-- A start joins the open gathering of its tag, or opens one (R338). -/
def joinGathering (gs : List Gathering) (c : Coll) : List Gathering :=
  match gs.find? fun g => g.part == c.part && g.tag == c.tag && !g.closed with
  | some g => gs.map fun x => if x = g then { g with members := g.members ++ [c], closed := g.members.length + 1 == g.size } else x
  | none =>
    gs ++ [{ part := c.part, tag := c.tag, size := if 2 ≤ c.nmem ∧ c.nmem ≤ 384 then c.nmem else 2, members := [c] }]
/-- A gathering that has just closed is compared: where its records differ, every member faults COLL_FORM (R338). -/
def closeGathering (s : State) (g : Gathering) : State :=
  match g.members with
  | [] => s
  | b :: _ =>
    if g.members.any (collBad s b) then
      g.members.foldl (fun s c => collFault s c.core c.stamp .collForm 0 0) { s with gatherings := s.gatherings.erase g }
    else s
/-- A collective at the head of a queue starts: it reads its record and joins its gathering (R337, R338). -/
def collBegin (s : State) (k : Nat) (m : Cmd) : State :=
  match readColl s k m with
  | .error (c, va, l) => collFault s k m.stamp c va (accessInfo c false l 0)
  | .ok (c, s) =>
    let s := putX s k { m with started := true }
    let s := { s with gatherings := joinGathering s.gatherings c }
    match s.gatherings.find? fun g => g.closed && g.members.contains c with
    | some g => closeGathering s g
    | none => s
/-- COLLECTIVE_START: the collective at the head of a core's exchange queue starts, once the sends before it have been written at their
destinations and its reads need not wait (R178, R191, R195, R337, R338, R351; DEDUCED, notes/assumptions/37.md, 39.md). -/
def execCollectiveStart (k : Nat) (s : State) : Host.Outcome State Fault Refusal :=
  .next (if s.coreStill k then s
    else
      match xHead (s.core k) with
      | none => s
      | some m =>
        if (collOp m.instr).isNone || m.started || sendsOut s k m.stamp || (s.core k).cmdReadWaits m then s
        else s.ifInTurn (collBegin s k m))

/-! ### Completion (R338, R339) -/

/-- The bytes that a member contributes, and those that it receives (R338). -/
def Coll.srcBytes (c : Coll) : Nat :=
  match collOp c.instr with
  | some (0, _, _) | none => 0
  | some (1, _, _) => c.bytes
  | some (_, _, _) => c.nmem * c.bytes
def Coll.dstBytes (c : Coll) : Nat :=
  match collOp c.instr with
  | some (0, _, _) | none => 0
  | some (2, _, _) => c.bytes
  | some (_, _, _) => c.nmem * c.bytes
/-- The data of the member of a rank. -/
def rankData (g : Gathering) (q : Nat) : List Byte := ((g.members.find? fun c => c.rank == q).map fun c => c.data).getD []
/-- One element reduced over the ranks in turn (R338). -/
def reduceElem (op : Nat) (t : Ty) (rm : Rm) (l : List Nat) : FRes :=
  match l with
  | [] => { bits := 0 }
  | x :: r =>
    r.foldl (fun a v =>
      let y := combineElem (op + 1) t rm a.bits v
      { bits := y.bits, fl := a.fl.or y.fl }) { bits := x }
/-- The bytes that a member receives, and the flags of its reduction (R338). -/
def collResult (g : Gathering) (c : Coll) : List Byte × Flags :=
  let ranks := List.range c.nmem
  let block := fun (q r : Nat) => ((rankData g q).drop (r * c.bytes)).take c.bytes
  match collOp c.instr with
  | some (1, _, _) => (ranks.flatMap (rankData g), {})
  | some (3, _, _) => (ranks.flatMap fun q => block q c.rank, {})
  | some (2, op, t) =>
    let w := t.w / 8
    let es := (List.range (c.bytes / w)).map fun i =>
      reduceElem op t c.rm (ranks.map fun q => ofBytes (((block q c.rank).drop (i * w)).take w))
    (es.flatMap fun e => toBytes w e.bits, es.foldl (fun f e => f.or e.fl) {})
  | some (_, _, _) | none => ([], {})
/-- A member of a gathering changed. -/
def putMember (s : State) (g : Gathering) (c c' : Coll) : State :=
  { s with gatherings := s.gatherings.map fun x => if x = g then { g with members := g.members.map fun y => if y = c then c' else y } else x }
/-- The closed gathering of a command, and its member. -/
def memberOf (s : State) (k stamp : Nat) : Option (Gathering × Coll) :=
  s.gatherings.findSome? fun g =>
    if g.closed then (g.members.find? fun c => c.core == k && c.stamp == stamp).map fun c => (g, c) else none

/-- A member reads what it contributes (R338). -/
def collGive (s : State) (k : Nat) (m : Cmd) (g : Gathering) (c : Coll) : State :=
  match collRead s k m.sup c.src c.srcBytes with
  | .error (z, va, l) => collFault s k m.stamp z va (accessInfo z false l 0)
  | .ok (bs, s) => putMember s g c { c with stage := 1, data := bs }
/-- A member's destination is written, once every member has contributed, but for bytes that a closed bell refuses: these are reported
once, with the bell (R334, R338; DEDUCED, notes/assumptions/38.md). -/
def collTake (s : State) (k : Nat) (m : Cmd) (g : Gathering) (c : Coll) : State :=
  let s := engReach s k c.dst c.dstBytes
  match engCheck s k m.sup true c.dst c.dstBytes with
  | .error (z, va, l) => collFault s k m.stamp z va (accessInfo z true l 0)
  | .ok ps =>
    let (bs, fl) := collResult g c
    let s := putMember (engWriteParts s (tileOf k) (ps.filter fun p => (refusedBy s k [p]).isNone) bs) g c { c with stage := 2, fl := fl }
    match refusedBy s k ps with
    | some b => s.report k m.ctx { cause := .doneTarget, info := BitVec.ofNat 32 b, stamp := m.stamp }
    | none => s
/-- A member's collective completes: flags, then its semaphore, with the mark dev where it received data in a translated page, which a barrier
does not (R338, R339; DEDUCED, notes/assumptions/56.md). -/
def collEnd (s : State) (k : Nat) (m : Cmd) (g : Gathering) (c : Coll) : State :=
  let s := putMember s g c { c with stage := 3 }
  let s := { s with gatherings := s.gatherings.filter fun x => !(x.closed && x.members.all fun y => y.stage == 3) }
  let s := s.updCore k fun x => { x with xq := x.xq.drop 1 }
  let s := s.orFlags k c.fl
  let ga := (m.vals[0]?).getD 0
  if Bits ga 6 6 = 1 then s
  else semIncr s k m.ctx (Bits ga 5 0) (0x1000000 ≤ c.dst && c.dst < 2 ^ 47 && c.dstBytes != 0) m.stamp
/-- A started collective goes on as far as the other members allow: it reads what it contributes, writes its destination once all have
contributed and its context's earlier loads have been performed, and completes once all are written (R185, R338, R339). -/
def collStep (s : State) (k : Nat) (m : Cmd) : State :=
  match memberOf s k m.stamp with
  | none => s
  | some (g, c) =>
    if c.stage = 0 then collGive s k m g c
    else if c.stage = 1 then
      (if (g.members.all fun y => y.stage != 0) && !(s.core k).cmdWaits m then collTake s k m g c else s)
    else if c.stage = 2 ∧ (g.members.all fun y => 2 ≤ y.stage) then collEnd s k m g c
    else s
/-- COLLECTIVE_COMPLETE: the collective at the head of a core's exchange queue goes on (R338, R339, R351). -/
def execCollectiveComplete (k : Nat) (s : State) : Host.Outcome State Fault Refusal :=
  .next (if s.coreStill k then s
    else
      match xHead (s.core k) with
      | none => s
      | some m => if m.started then s.ifInTurn (collStep s k m) else s)

/-- A faulted command of an exchange queue is discarded by `eret` (R310, R339, R400). -/
def collDiscard (s : State) (k : Nat) (m : Cmd) : State :=
  s.updCore k fun x => { x with xq := x.xq.filter fun e => e.idx != m.idx }
/-- `eret` goes on with a command held by this cause, and ends every other (R310, R339). -/
def collResumes (m : Cmd) : Bool :=
  match m.flt with
  | some .page | some .prot | some .scratchRange | some .phase => true
  | _ => false
/-- A held collective goes on at once by `eret`; a fault that it meets again marks it again (R310, R339, R400). -/
def collReplay (s : State) (k : Nat) (m : Cmd) : State :=
  let m := m.again
  let s := putX s k m
  if m.started then collStep s k m else collBegin s k m

end Sys2Proof.Machine
end

