-- ==== Sys2Proof/Machine/Net.lean ====
section
/-! DEFINITION. The open plane: injection, hops, suspicion, the Lantern and the Byway, delivery, acknowledgements, failed links and
routers (R342 to R357). -/

namespace Sys2Proof.Machine

/-! ### Packets in a router (R342, R345) -/

/-- Each class has room for one packet on each rail of each input: with seven inputs, two rails and four classes at most 56 of the 64
packets of R342 (R342, R343; DESIGN CHOICE, notes/assumptions/14.md). -/
def railRoom (r : Router) (port rail : Nat) (c : MsgClass) : Bool :=
  !(r.pkts.any fun p => p.port == port && p.rail == rail && p.msg.cls == c)
/-- An input of a router has room for one more packet of a class. -/
def hasRoom (r : Router) (port : Nat) (c : MsgClass) : Bool := railRoom r port 0 c || railRoom r port 1 c
/-- The rail that takes a packet of a class at a port: one with room for it, and of two the one with more free room, the lower one when
both have the same (R342; DESIGN CHOICE, notes/assumptions/14.md). -/
def freerRail (r : Router) (port : Nat) (c : MsgClass) : Nat :=
  let n := fun (k : Nat) => (r.pkts.filter fun p => p.port == port && p.rail == k).length
  if railRoom r port 1 c && (!railRoom r port 0 c || n 1 < n 0) then 1 else 0
/-- A packet goes before another: the older one, then the one from the lower source tile, then the lower rail (R345). -/
def goesFirst (p q : Pkt) : Bool :=
  p.msg.age < q.msg.age || (p.msg.age == q.msg.age && (p.msg.src < q.msg.src || (p.msg.src == q.msg.src && p.rail < q.rail)))
/-- The first of some packets under R345. -/
def firstPkt : List Pkt → Option Pkt
  | [] => none
  | p :: t =>
    match firstPkt t with
    | none => some p
    | some q => if goesFirst q p then some q else some p
/-- The heads of an input of a router: the first packet of each class there. -/
def heads (r : Router) (port rail : Nat) : List Pkt :=
  let l := r.pkts.filter fun p => p.port == port && p.rail == rail
  [MsgClass.request, .reply, .combine, .control].filterMap fun c => l.find? fun p => p.msg.cls == c
/-- The heads of every input of a router: six ports and the local one. -/
def allHeads (r : Router) : List Pkt := [0, 1, 2, 3, 4, 5, 8].flatMap fun p => heads r p 0 ++ heads r p 1

/-! ### Injection (R351) -/

/-- The window of 64 lets a message of a pair be injected: the number 64 below is acknowledged. A failed destination keeps no
window (R351, R356). -/
def windowOpen (s : State) (m : Msg) : Bool :=
  let p := s.pair (pairKey m.src m.dst (spaceOf m))
  m.seq < p.acked + 64 || p.early.contains (m.seq - 64) || s.net.failedRouters.contains m.dst
/-- The unit that submits a message: a core for its accesses and `done` messages, else the homes or the exchange unit of the tile
(R351; DEDUCED, notes/assumptions/14.md). -/
def unitOf (m : Msg) : Option Nat :=
  match m.body with
  | .access a => some a.core
  | .done _ _ k _ _ => some k
  | .answer .. | .wake .. | .report .. | .ack .. => none
  | .lane _ => some 3200
/-- A message of an interface may be injected, with the messages that were submitted before it: its class has room at the local input;
its window is open, and no earlier message of its unit waits on a closed window. Messages of one pair go as their classes have room, and
are put in the order of their numbers at the destination. An acknowledgement waits on no window (R343, R351, R352). -/
def mayInject (s : State) (i : Nat) (before : List Msg) (m : Msg) : Bool :=
  hasRoom (s.router i) 8 m.cls &&
    (isAck m || (windowOpen s m && !(before.any fun b => !isAck b && unitOf b == unitOf m && !windowOpen s b)))
/-- The first message of a list that may be injected. -/
def firstFree (s : State) (i : Nat) : List Msg → List Msg → Option Msg
  | _, [] => none
  | before, m :: t => if mayInject s i before m then some m else firstFree s i (before ++ [m]) t
/-- The message that an interface injects next; none of a halting partition goes (R351, R406). -/
def nextOut (s : State) (i : Nat) : Option Msg :=
  firstFree s i [] ((s.iface i).out.filter fun m => !s.tileHalting m.src && !s.tileHalting m.dst)
/-- A tile lies outside a partition: a cluster of another one. A Granary or an I/O tile belongs to every partition
(R408; DEDUCED, notes/assumptions/19.md). -/
def outside (s : State) (p t : Nat) : Bool := decide (t < 384) && (s.cluster t).part != p
/-- A packet that a resume has read into a spill slot enters the local input of its router; one with an end outside the partition is
dropped (R408). -/
def injectSpill (s : State) (i p : Nat) (m : Msg) (rest : List (Nat × Msg)) : State :=
  let s' := s.updRouter i fun r => { r with spill := rest }
  if outside s p m.src || outside s p m.dst then s'
  else if !hasRoom (s.router i) 8 m.cls then s
  else s'.updRouter i fun r => { r with pkts := r.pkts ++ [{ msg := m, port := 8, rail := freerRail r 8 m.cls }] }
/-- PACKET_INJECT: an interface injects its next message into its router, with its age (R345, R351). Packets in spill
slots go first (R408), and no message of a halting partition is injected (R406). -/
def execPacketInject (i : Nat) (s : State) : Host.Outcome State Fault Refusal :=
  .next (if s.io.frz then s
    else
      match (s.router i).spill with
      | (p, m) :: rest => injectSpill s i p m rest
      | [] =>
      match nextOut s i with
      | none => s
      | some m =>
        let s' := s.updIface i fun x => { x with out := x.out.erase m }
        let m := { m with age := s.tower.toNat }
        s'.updRouter i fun r => { r with pkts := r.pkts ++ [{ msg := m, port := 8, rail := freerRail r 8 m.cls }] })

/-! ### Failures on the way (R356) -/

/-- The source of a dropped message tells the sending context; the loss of an answer is told to the context that asked
(R356; DEDUCED, notes/assumptions/41.md). -/
def tellDown (s : State) (m : Msg) : State :=
  match m.body with
  | .access a =>
    match a.asker with
    | .wback _ => answerTo (reportStorers s (tileOf a.core) a .tileDown 0) a.asker a.core a.ctx a.stamp [] none
    | .op .. | .fetch .. | .none => answerTo s a.asker a.core a.ctx a.stamp [] (some (.tileDown, 0))
  | .done _ _ k c stamp => s.report k c { cause := .tileDown, stamp := stamp }
  | .lane p => s.report p.core p.ctx { cause := .tileDown, stamp := p.stamp }
  | .answer ask k c stamp _ _ _ => answerTo s ask k c stamp [] (some (.tileDown, 0))
  | .wake k c _ =>
    match (s.core k).ops.find? fun e => e.2.ctx == c && e.2.stage == .parked with
    | some (e, _) => opFault s k e .tileDown 0 0
    | none => s
  | .report .. | .ack .. => s
/-- The numbers of a dropped message's pair go on: the message is lost, or for an acknowledgement what it acknowledges counts as
acknowledged (R356; DEDUCED, notes/assumptions/41.md). -/
def dropSeq (s : State) (m : Msg) : State :=
  if s.net.failedRouters.contains m.dst then s
  else
    match m.body with
    | .ack sp n => if s.net.failedRouters.contains m.src then s else s.updPair (pairKey m.dst m.src sp) fun p => p.ack n
    | _ => s.updPair (pairKey m.src m.dst (spaceOf m)) fun p => p.lose m.seq
/-- A message is dropped at a router (R356, R360; DEDUCED, notes/assumptions/41.md). -/
def dropMsg (s : State) (r : Nat) (m : Msg) : State :=
  tellDown (dropSeq (s.updRouter r fun x => { x with drop := capped 65535 (x.drop + 1) }) m) m
/-- A packet leaves a router. -/
def takePkt (s : State) (r : Nat) (p : Pkt) : State := s.updRouter r fun x => { x with pkts := x.pkts.erase p }

/-! ### Hops, suspicion, capture (R344 to R349) -/

/-- A message enters the interface of its destination. -/
def eject (s : State) (t : Nat) (m : Msg) : State := s.updIface t fun x => { x with inbox := x.inbox ++ [m] }
/-- A packet moves over a port to the next router, on the freer rail there. -/
def hopOver (s : State) (t p : Nat) (q : Pkt) : State :=
  match neighbour t p with
  | none => s
  | some u =>
    let s := (takePkt s t q).updRouter t fun x => { x with runs := x.runs.put p 0 }
    s.updRouter u fun r =>
      let port := backPort p
      { r with pkts := r.pkts ++ [{ q with port := port, rail := freerRail r port q.msg.cls, suspect := false }] }
/-- The first productive port over a live link to an input with room, in the order of the port numbers
(DESIGN CHOICE, notes/assumptions/14.md). -/
def openPort (s : State) (t : Nat) (q : Pkt) (ports : List Nat) : Option Nat :=
  ports.find? fun p => linkLive s t p && (match neighbour t p with
    | some u => hasRoom (s.router u) (backPort p) q.msg.cls
    | none => false)
/-- One packet at the head of an input advances, if it can: it is ejected at its destination, dropped where no route is left, or
moved one hop. -/
def advance (s : State) (t : Nat) (q : Pkt) : State :=
  if s.net.failedRouters.contains q.msg.dst ∨ s.net.failedRouters.contains t then dropMsg (takePkt s t q) t q.msg
  else if q.msg.dst = t then eject (takePkt s t q) t q.msg
  else
    let ports := productive s t q.msg.dst
    if ports.isEmpty then dropMsg (takePkt s t q) t q.msg
    else
      match openPort s t q ports with
      | none => s
      | some p => hopOver s t p q
/-- The output that a head can go to now: a port, 8 for the interface, 9 for nowhere; none while it must wait. -/
def wants (s : State) (t : Nat) (q : Pkt) : Option Nat :=
  if s.net.failedRouters.contains q.msg.dst ∨ s.net.failedRouters.contains t then some 9
  else if q.msg.dst = t then some 8
  else
    let ports := productive s t q.msg.dst
    if ports.isEmpty then some 9 else openPort s t q ports
/-- A head wins its output: it can go, and no head of the router that goes before it contends for the same output (R345). -/
def wins (s : State) (t : Nat) (q : Pkt) : Bool :=
  match wants s t q with
  | none => false
  | some p => p == 9 || !((allHeads (s.router t)).any fun x => goesFirst x q && wants s t x == some p)
/-- PACKET_HOP: of the heads of an input of a router, one for each class, the oldest that wins its output advances
(R343 to R345). -/
def execPacketHop (r port rail : Nat) (s : State) : Host.Outcome State Fault Refusal :=
  .next (if s.io.frz then s
    else
      match firstPkt ((heads (s.router r) port rail).filter (wins s r)) with
      | none => s
      | some q => advance s r q)
/-- PACKET_SUSPECT: a packet that has waited at a head for more than TMO cycles is marked; of the heads of an input, one for each class,
any may be the one that has waited so long (R346, R360; DEDUCED, notes/assumptions/8.md). -/
def execPacketSuspect (r port rail : Nat) (s : State) : Host.Outcome State Fault Refusal :=
  .next (if s.io.frz then s
    else
      let l := (heads (s.router r) port rail).filter fun p => !p.suspect
      match l[Config.pick s.freeCtr % l.length]? with
      | none => s
      | some q =>
        s.spend.updRouter r fun x =>
          { x with pkts := x.pkts.map (fun p => if p = q then { p with suspect := true } else p), susp := capped 65535 (x.susp + 1) })

/-- The router at a position of the Lantern's ring (R347). -/
def ringRouter (n : Nat) : Nat := if n < 512 then tileAt (n / 128) (n % 128 / 8) (n % 8) else n
/-- The oldest suspect of a router, when the reserved slot of its destination is free (R348). -/
def captive (s : State) (r : Nat) : Option Pkt :=
  match firstPkt ((s.router r).pkts.filter fun p => p.suspect) with
  | none => none
  | some p => if (s.router p.msg.dst).reserved.isSome then none else some p
/-- LANTERN_CAPTURE: the Lantern, which has gone round since it was last held and stands at a position that is left free, comes to the
next router that can capture a suspect, which moves it into the Byway (R347, R348; DEDUCED, notes/assumptions/14.md). -/
def execLanternCapture (s : State) : Host.Outcome State Fault Refusal :=
  .next (if s.io.frz || s.net.byway.isSome then s
    else
      let at' := s.net.lantern + Config.pick s.freeCtr
      match ((List.range 520).map fun i => (at' + i) % 520).find? fun n => (captive s (ringRouter n)).isSome with
      | none => s
      | some n =>
        let r := ringRouter n
        match captive s r with
        | none => s
        | some p =>
          let s := (takePkt s.spend r p).updRouter r fun x => { x with capt := capped 65535 (x.capt + 1) }
          { s with net := { s.net with lantern := n, byway := some (r, p.msg) } })

/-- The compute-die router to which an I/O-die router attaches (R13, R349). -/
def attachOf (t : Nat) : Nat := tileAt ((t - 512) / 2) (7 + t % 2) 7
/-- The port of the Byway's dimension-order route from a router: along the row, crossing die-to-die links but no skip channel, then along
the column; over the attach links and the chain of the I/O die (R349). -/
def bywayPort (t dst : Nat) : Nat :=
  if 512 ≤ t then (if dst < 512 then 0 else if t < dst then 1 else 3)
  else
    let u := if 512 ≤ dst then attachOf dst else dst
    if t = u then 2
    else
      match posOf t, posOf u with
      | (d, c, r), (d', c', r') =>
        if 16 * d + c < 16 * d' + c' then 1 else if 16 * d' + c' < 16 * d + c then 3 else if r < r' then 2 else 0
/-- One hop of the Byway: over the route's link or, where that has failed or would lead back, over the first productive live port of the
distance table in the order north, east, south, west, and then the skip channels (R349; DEDUCED, notes/assumptions/14.md). -/
def bywayHop (s : State) (t dst : Nat) (seen : List Nat) : Option Nat :=
  let via := fun (p : Nat) => if linkLive s t p then (neighbour t p).bind fun u => if seen.contains u then none else some u else none
  match via (bywayPort t dst) with
  | some u => some u
  | none => (productive s t dst).findSome? via
/-- The Byway reaches a destination from a router. -/
def bywayReaches (s : State) (dst : Nat) : Nat → List Nat → Nat → Bool
  | 0, _, _ => false
  | fuel + 1, seen, t =>
    t == dst ||
      match bywayHop s t dst (t :: seen) with
      | some u => bywayReaches s dst fuel (t :: seen) u
      | none => false
/-- The distance tables have taken in every failure (R355, R356). -/
def tablesCurrent (s : State) : Bool :=
  (s.net.failedLinks.all fun l => !tableLink s l.1 l.2) && (s.net.failedRouters.all s.net.knownRouters.contains) &&
    s.net.routers.all fun e => (List.range 6).all fun p => !e.2.down.testBit p || !tableLink s e.1 p
/-- BYWAY_EJECT: the Byway has carried its packet along its route into the reserved slot of its destination, and the Lantern goes on. A
packet for a failed tile, or one that the recomputed tables take nowhere, is dropped; one that meets a failed link before then waits in
the Byway (R348, R349, R355, R356). -/
def execBywayEject (s : State) : Host.Outcome State Fault Refusal :=
  .next (if s.io.frz then s
    else
      match s.net.byway with
      | none => s
      | some (r, m) =>
        let t := { s with net := { s.net with byway := none, lantern := (s.net.lantern + 1) % 520 } }
        if s.net.failedRouters.contains m.dst then dropMsg t r m
        else if bywayReaches s m.dst 520 [] r || (tablesCurrent s && !(productive s r m.dst).isEmpty) then
          t.updRouter m.dst fun x => { x with reserved := some m, byej := capped 65535 (x.byej + 1) }
        else if tablesCurrent s then dropMsg t r m
        else s)

/-! ### Delivery and acknowledgement (R351, R352) -/

/-- The packet in the reserved slot of an interface goes before every other (R349). -/
def drainReserved (s : State) (i : Nat) : State :=
  match (s.router i).reserved with
  | none => s
  | some m => (s.updRouter i fun x => { x with reserved := none }).updIface i fun x => { x with inbox := m :: x.inbox }
/-- A message in an inbox may be delivered: every lower number of its pair and space has been. -/
def deliverable (s : State) (m : Msg) : Bool := isAck m || m.seq == (s.pair (pairKey m.src m.dst (spaceOf m))).deliver
/-- PACKET_DELIVER: an interface delivers the first message whose turn has come, and acknowledges it (R351, R352). -/
def execPacketDeliver (i : Nat) (s : State) : Host.Outcome State Fault Refusal :=
  .next (if s.io.frz then s
    else
      let s := drainReserved s i
      match (s.iface i).inbox.find? fun m => deliverable s m && !s.tileStopped m.src && !s.tileStopped m.dst with
      | none => s
      | some m =>
        let s := s.updIface i fun x => { x with inbox := x.inbox.erase m }
        if isAck m then deliverUnit s i m
        else
          let s := s.updPair (pairKey m.src m.dst (spaceOf m)) Pair.delivered
          let s := s.updIface i fun x =>
            { x with out := x.out ++ [{ src := i, dst := m.src, cls := .control, body := .ack (spaceOf m) m.seq }] }
          deliverUnit s i m)
/-- ACK_ARRIVAL: an acknowledgement opens the window of its pair at the source (R351). -/
def execAckArrival (i : Nat) (s : State) : Host.Outcome State Fault Refusal :=
  .next (if s.io.frz then s
    else
      match (s.iface i).acks with
      | [] => s
      | m :: t =>
        let s := s.updIface i fun x => { x with acks := t }
        match m.body with
        | .ack sp n => s.updPair (pairKey i m.src sp) fun p => p.ack n
        | _ => s)

/-! ### Failed links and routers (R355, R356) -/

/-- LINK_RETRY: a beat on an output link is sent again; after sixteen in a row the link has failed, which may cut a tile off
(R355, R361, R379). The sixteenth retry is taken to fail in the step that sends it (DEDUCED, notes/assumptions/14.md). -/
def execLinkRetry (r port : Nat) (s : State) : Host.Outcome State Fault Refusal :=
  .next (if s.io.frz || !linkLive s r port then s
    else
      let n := (s.router r).runs.get 0 port + 1
      let s := s.updRouter r fun x => { x with retry := capped (2 ^ 24 - 1) (x.retry + 1), runs := x.runs.put port n }
      if 16 ≤ n then loseTasks { s with net := { s.net with failedLinks := s.net.failedLinks ++ [(r, port)] } } else s)
/-- ROUTE_TABLE_RECOMPUTE: the distance tables take in a failed link, or a failed router at the link (R355, R356); and a link that
system software has given back (R359). -/
def execRouteTableRecompute (r port : Nat) (s : State) : Host.Outcome State Fault Refusal :=
  .next (if s.io.frz then s
    else
      let dead := s.net.failedRouters.filter fun t => !s.net.knownRouters.contains t && (t == r || neighbour r port == some t)
      let s := { s with net := { s.net with knownRouters := s.net.knownRouters ++ dead } }
      if linkFailed s r port then
        if s.net.knownLinks.contains (r, port) then s
        else { s with net := { s.net with knownLinks := s.net.knownLinks ++ [(r, port)] } }
      else { s with net := { s.net with knownLinks := s.net.knownLinks.filter fun l => l != (r, port) } })
/-- The numbers and windows of the pairs with a failed tile are reset: nothing more reaches it, and nothing that it has sent is outstanding
(R356). -/
def resetPairs (t : Tab Pair) (r : Nat) : Tab Pair :=
  (t.filter fun e => e.1 / 2 % 520 != r).map fun e =>
    if e.1 / 2 / 520 = r then (e.1, { e.2 with acked := e.2.next, early := [] }) else e
/-- ROUTER_FAIL: a router fails, its packets and those that its interface has not delivered are dropped, and the windows of its pairs are
reset; an attempt of a task whose cores it cuts off ends (R356, R379). -/
def execRouterFail (r : Nat) (s : State) : Host.Outcome State Fault Refusal :=
  .next (if s.io.frz ∨ 520 ≤ r ∨ s.net.failedRouters.contains r then s
    else
      let x := s.router r
      let ms := (x.pkts.map fun p => p.msg) ++ x.reserved.toList ++ (s.iface r).inbox
      let s := (s.updRouter r fun x => { x with pkts := [], reserved := none }).updIface r fun x => { x with inbox := [] }
      let s := { s with net := { s.net with
        failedRouters := s.net.failedRouters ++ [r]
        pairs := resetPairs s.net.pairs r } }
      loseTasks (ms.foldl (fun s m => dropMsg s r m) s))

end Sys2Proof.Machine
end

