-- ==== Sys2Proof/Machine/Reeve.lean ====
section
/-! DEFINITION. The Reeve: launch records, acceptance, selection, placement, deadlines, retirement and the stall census
(R27 to R33, R40, R41, R120, R362 to R381). -/

namespace Sys2Proof.Machine

/-! ### Reading for the Reeve (R363) -/

/-- Bytes read at the addresses of a task record: the bytes and the state, or the cause (R363, R371). -/
def recFetch (s : State) (cl : Option Nat) (va n : Nat) : Except Cause (List Byte × State) :=
  match recPieces s cl false (pieces va n) with
  | .error e => .error e.1
  | .ok l =>
    let ps : List Part := l.map fun q => { va := q.1, pa := q.1, off := q.2.1, n := q.2.2 }
    if (hostFails s ps).isSome then .error .tileDown
    else
      match engReadParts (recWalk s cl va n) 512 ps with
      | (bs, false, s) => .ok (bs, s)
      | (_, true, _) => .error .poison

/-! ### Launch records (R29 to R32) -/

/-- A group entry: EOFF and CORES (R31). -/
def groupEntry (w : Nat) : Nat × Nat := (w / 2 ^ 16 % 2 ^ 16, w % 2 ^ 7)
/-- The number of groups that a record names (R30). -/
def recGroups (hdr : Nat) : Nat := hdr / 2 ^ 8 % 16 + 1
/-- A field of a launch record. -/
def recField (r : List Byte) (off n : Nat) : Nat := ofBytes ((r.drop off).take n)
/-- The group words of a launch record (R29). -/
def groupWords (r : List Byte) : List Nat := (List.range 16).map fun i => recField r (0x40 + 4 * i) 4

/-- The header of a launch record is well formed (R30, R32). -/
def headerOk (h : Nat) : Bool :=
  let kind := h % 16
  h / 2 ^ 39 == 0 && h / 2 ^ 16 % 2 ^ 16 == 0 && h / 2 ^ 6 % 4 == 0 && decide (kind ≤ 2) && (kind == 2 || h / 2 ^ 32 % 128 == 0) &&
    (kind == 1 || h / 2 ^ 8 % 16 == 0) && !(kind == 2 && h.testBit 4)
/-- The group entries of a launch record are well formed (R31, R32). -/
def groupsOk (h : Nat) (ws : List Nat) : Bool :=
  let n := recGroups h
  (ws.take n).all (fun w => w / 2 ^ 7 % 2 ^ 9 == 0 && decide (1 ≤ w % 2 ^ 7) && decide (w % 2 ^ 7 ≤ 64) &&
      (h % 16 == 1 || w % 2 ^ 7 == 1)) &&
    (ws.drop n).all fun w => w == 0
/-- The other fields of a launch record are within their ranges (R29, R32). -/
def fieldsOk (r : List Byte) : Bool :=
  let f := recField r
  let eoff := ((groupWords r).map fun w => (groupEntry w).1).foldl max 0
  f 0x08 8 % 8 == 0 && f 0x10 4 % 8 == 0 && decide (8 ≤ f 0x10 4) && decide (f 0x10 4 ≤ 65536) && f 0x14 4 % 8 == 0 &&
    decide (f 0x14 4 < 65536) && f 0x18 8 % 8 == 0 && f 0x20 4 % 8 == 0 && decide (f 0x20 4 ≤ 4096) && decide (f 0x24 4 ≤ 15) &&
    f 0x28 8 / 2 ^ 48 == 0 && f 0x30 8 % 32 == 0 && f 0x38 8 % 16 == 0 && decide (f 0x14 4 + eoff * 8 < f 0x10 4) &&
    decide (f 0x24 4 * 16 ≤ f 0x20 4)
/-- A launch record passes R32. -/
def recordOk (r : List Byte) : Bool := headerOk (recField r 0 8) && groupsOk (recField r 0 8) (groupWords r) && fieldsOk r

/-- The record of the Reeve that 128 bytes describe (R29 to R31), not yet accepted. -/
def parseRecord (r : List Byte) (die part : Nat) (sup : Bool) (cl : Option Nat) : TaskRec :=
  let f := recField r
  let h := f 0 8
  { ticket := 0, die := die, age := 0, part := part, kind := h % 16, gran := h / 2 ^ 32 % 128, dev := h / 2 ^ 12 % 16,
    hasdl := h.testBit 5, restart := h.testBit 4, code := f 0x08 8, codelen := f 0x10 4, entry := f 0x14 4, args := f 0x18 8,
    arglen := f 0x20 4, ronum := f 0x24 4, deadline := if h.testBit 5 then f 0x28 8 % 2 ^ 48 else 2 ^ 48 - 1,
    status := f 0x30 8, compl := f 0x38 8, groups := ((groupWords r).take (recGroups h)).map groupEntry, sup := sup,
    cluster := if h % 16 = 2 then none else cl }

/-! ### Acceptance (R32, R364, R365) -/

/-- The clusters that a group of `c` cores takes (R367). -/
def groupSpan (c : Nat) : Nat := max 1 ((c + 7) / 8)
/-- The fit rule of a record (R364, R370). -/
def recFits (s : State) (r : TaskRec) : Bool :=
  r.kind == 2 || decide ((r.groups.map fun g => groupSpan g.2).sum ≤ (partClusters s r.part).length)

/-- A record is rejected: STATE 3 and the cause where the status record can be written, else one more in RSTAT.REJ (R32). -/
def rejectRec (s : State) (r : TaskRec) (c : Cause) : State :=
  if r.status % 32 ≠ 0 ∨ (r.kind ≠ 2 ∧ r.cluster.isNone) then s.countRej r.die
  else
    match putStatus s r 3 0 c.code with
    | .ok s => s
    | .error _ => s.countRej r.die

/-- The ticket after one: 32 bits, without 0 (R364). -/
def nextTicket (t : Nat) : Nat := if (t + 1) % 2 ^ 32 = 0 then 1 else (t + 1) % 2 ^ 32
/-- A record that has been accepted: its ticket and age, and STATE 0 in its status record (R364). -/
def enterRec (s : State) (r : TaskRec) (st : TaskState) : State :=
  let r := { r with ticket := s.reeve.ticket, age := s.tower.toNat, state := st }
  let s := { s with reeve := { s.reeve with ticket := nextTicket s.reeve.ticket, recs := s.reeve.recs ++ [r] } }
  match putStatus s r 0 0 0 with
  | .ok s => s
  | .error _ => s
/-- The free slots of a die's pool, and whether it takes a record that is not spilled (R365). -/
def poolFree (s : State) (d : Nat) : Nat := 8192 - pooled s d
def poolTakes (s : State) (d : Nat) : Bool :=
  spilled s d == 0 && decide ((s.reeve.dies.get {} d).lw < poolFree s d)
/-- The spill queue of a die has room (R365). -/
def spillRoom (s : State) (d : Nat) : Bool := decide (spilled s d < (s.reeve.dies.get {} d).spsize)
/-- The 256 bytes of a spilled record, in the Reeve's own form (R365; DEDUCED, notes/assumptions/19.md). -/
def spillBytes (ticket : Nat) : List Byte := (List.range 256).map fun i => Config.spillByte ticket i
/-- The spill area takes a record, in a slot that no other record holds (R365; DEDUCED, notes/assumptions/19.md). -/
def spillWrite (s : State) (d ticket : Nat) : State :=
  let v := s.reeve.dies.get {} d
  let slots := (List.range v.spsize).filter fun n => !(s.reeve.recs.any fun r =>
    r.die == d && r.state == .spilled && r.spillAt == some (v.spbase.toNat + n * 256))
  let a := v.spbase.toNat + (slots[Config.pick s.freeCtr % max 1 slots.length]?).getD 0 * 256
  let s := s.spend
  match s.physWrite a (spillBytes ticket) with
  | some s => s.updRec ticket fun r => { r with spillAt := some a }
  | none => s
/-- The spill area still holds what the Reeve wrote of a record. -/
def spillHolds (s : State) (r : TaskRec) : Bool :=
  match r.spillAt with
  | some a => s.read a 256 == spillBytes r.ticket
  | none => true
/-- A spilled record whose bytes someone else has written is undefined: what it says is free, and it is lost where that is no launch record
(R365; DEDUCED, notes/assumptions/19.md). -/
def undefinedRec (s : State) (r : TaskRec) : State :=
  let (bs, s) := freeBytes s 128
  if recordOk bs then
    s.updRec r.ticket fun _ =>
      { parseRecord bs r.die r.part r.sup r.cluster with ticket := r.ticket, age := r.age, consumer := r.consumer }
  else s.dropRec r.ticket

/-! ### Work from device code (R373) -/

/-- gB of `spawn` and `gang` has one of its three forms (R373). -/
def consumerOk (g : Nat) : Bool := g == 2 ^ 63 || decide (g < 2 ^ 32)
/-- The consumer that gB names: none, the issuing task, or the task of a ticket while it is queued or running (R373). -/
def consumerOf (s : State) (k g : Nat) : Option Nat :=
  if g = 0 then none
  else if g = 2 ^ 63 then (s.core k).task
  else (s.rec? g).map fun r => r.ticket

/-- A record that has been accepted, with the consumer that gB names then (R373). -/
def enterSpawned (s : State) (r : TaskRec) (st : TaskState) (gb : Nat) : State :=
  let t := s.reeve.ticket
  let s := enterRec s r st
  s.updRec t fun r => { r with consumer := consumerOf s s.cur.core gb }
/-- A record that `spawn` or `gang` has read is rejected, spilled or pooled (R364, R365, R373). -/
def acceptSpawned (s : State) (d : R5) (gb : Nat) (form : Bool) (r : TaskRec) : State :=
  if !form then (rejectRec s r .launchForm).trap .launchForm
  else if !recFits s r then (rejectRec s r .launchFit).trap .launchFit
  else
    let t := s.reeve.ticket
    if poolTakes s r.die then (enterSpawned s r .queued gb).setG d (BitVec.ofNat 64 t)
    else if spillRoom s r.die then (spillWrite (enterSpawned s r .spilled gb) r.die t).setG d (BitVec.ofNat 64 (t + 2 ^ 63))
    else s.trap .spillFull

/-- The record at an address is read by the launching core, and accepted (R373). -/
def launchRead (s : State) (kind ga gb : Nat) (d : R5) : State :=
  let k := s.cur.core
  let s := (engReach s k ga 128).exchanged (tileOf k) 512
  match engCheck s k s.me.sup false ga 128 with
  | .error (c, _, l) => s.trap c (accessInfo c false l 0)
  | .ok ps =>
    match engReadParts s (tileOf k) ps with
    | (_, true, s) => s.trap .poison
    | (bs, false, s) =>
      let cl := clusterOf k
      let r := parseRecord bs (dieOf k) (s.cluster cl).part false (some cl)
      acceptSpawned s d gb (recordOk bs && r.kind == kind) { r with cluster := some cl }
/-- `spawn` (KIND 0) and `gang` (KIND 1), R373. -/
def State.launch (s : State) (kind : Nat) (d a b : R5) : State :=
  let k := s.cur.core
  let ga := (s.srcG a).toNat
  let gb := (s.srcG b).toNat
  if isGran k then s.trap .launchRole
  else if ga % 32 ≠ 0 then s.trap .align
  else if !consumerOk gb then s.trap .launchForm
  else
    match releaseTry s k s.cur.ctx .dev with
    | (false, s) => s.stall
    | (true, s) =>
      let t := launchRead s kind ga gb d
      if s.inTurn t then t else s.stall
/-- `spawn` (R373). -/
def execSpawn (d a b : R5) (s : State) : Host.Outcome State Fault Refusal := .next (s.launch 0 d a b)
/-- `gang` (R373). -/
def execGang (d a b : R5) (s : State) : Host.Outcome State Fault Refusal := .next (s.launch 1 d a b)

/-! ### Host queues and the spill queue (R363 to R365, R370) -/

/-- A record that a host queue's entry named is accepted or rejected (R364, R370, R388). -/
def acceptHost (s : State) (q : HostQueue) (bs : List Byte) : State :=
  let r := parseRecord bs q.die q.part (q.part == 0) (partClusters s q.part).head?
  let r := { r with sup := q.part == 0 || r.kind == 2 }
  if !recordOk bs then rejectRec s r .launchForm
  else if r.kind = 2 ∧ q.part ≠ 0 then rejectRec s r .launchRole
  else if !recFits s r then rejectRec s r .launchFit
  else enterRec s r .queued
/-- The next entry of a host queue is read, and HEAD advances; an entry or a record that cannot be read is counted (R363). A record whose
address is not a multiple of 32 is read where it stands (R29; DESIGN CHOICE, notes/assumptions/53.md). -/
def readQueue (s : State) (n : Nat) : State :=
  let q := s.reeve.queues.get {} n
  let t := { s with reeve := { s.reeve with queues := s.reeve.queues.put n { q with head := (q.head + 1) % q.size } } }
  match recFetch t none (q.base.toNat + 8 * q.head) 8 with
  | .error _ => t.countRej q.die
  | .ok (e, t) =>
    match recFetch t none (ofBytes e) 128 with
    | .error _ => t.countRej q.die
    | .ok (bs, t) => acceptHost t q bs
/-- HOST_QUEUE_READ: the Reeve of a queue's die reads its next entry, when the device is ready, the queue is enabled and the pool
has more free slots than LW (R363, R385, R442). -/
def execHostQueueRead (n : Nat) (s : State) : Host.Outcome State Fault Refusal :=
  let q := s.reeve.queues.get {} n
  .next (if !s.io.frz && s.io.ready && q.en && decide (2 ≤ q.size) && q.head != q.tail &&
      decide ((s.reeve.dies.get {} q.die).lw < poolFree s q.die) then readQueue s n
    else s)

/-- A record comes before another in order of age (R364). -/
def older (r q : TaskRec) : Bool := r.age < q.age || (r.age == q.age && r.ticket < q.ticket)
/-- SPILL_REFILL: the oldest spilled record of a die moves into its pool (R156, R365). -/
def execSpillRefill (die : Nat) (s : State) : Host.Outcome State Fault Refusal :=
  let l := (s.reeve.recs.filter fun r => r.die == die && r.state == .spilled).mergeSort older
  .next (if s.io.frz ∨ poolFree s die = 0 then s
    else
      match l with
      | [] => s
      | r :: _ =>
        let s := match r.spillAt with
          | some a => llcReads s a 256
          | none => s
        if spillHolds s r then s.updRec r.ticket fun r => { r with state := .queued, spillAt := none } else undefinedRec s r)

/-! ### Selection (R366 to R369) -/

/-- The key of a record: ticks to its deadline as a signed 48-bit value (R366). -/
def recKey (s : State) (r : TaskRec) : Int := toSigned 48 ((r.deadline + 2 ^ 48 - s.tower.toNat % 2 ^ 48) % 2 ^ 48)
/-- The order of selection: records with a deadline by key, then the others; ties by age (R366). -/
def selectBefore (s : State) (r q : TaskRec) : Bool :=
  if r.hasdl != q.hasdl then r.hasdl
  else if r.hasdl && recKey s r != recKey s q then decide (recKey s r < recKey s q)
  else older r q
/-- The queued records of a partition in order of selection (R366). -/
def eligible (s : State) (p : Nat) : List TaskRec :=
  (s.reeve.recs.filter fun r => r.kind != 2 && r.part == p && r.state == .queued).mergeSort (selectBefore s)

/-- A core can be used at its cluster's next placement: it has not failed, or the spare core is still there for it (R7, R414). -/
def usable (s : State) (k : Nat) : Bool :=
  !(s.core k).failed || (!(s.cluster (clusterOf k)).spareUsed &&
    (coresOf (clusterOf k)).all fun j => !(s.core j).failed || decide (k ≤ j))
/-- A core is available to a record: its control context is free, and it is not reserved for another (R367). -/
def available (s : State) (r : TaskRec) (k : Nat) : Bool :=
  (s.ctx k 0).run == .free && usable s k && !(s.reeve.reserves.any fun v => v.ticket != r.ticket && v.cores.contains k)
/-- The `j` cores that a group takes of a cluster: available ones first (R367). -/
def takeCores (s : State) (r : TaskRec) (cl j : Nat) : List Nat :=
  let av := (coresOf cl).filter (available s r)
  let no := (coresOf cl).filter fun k => !available s r k
  (av.take j ++ no.take (j - av.length)).mergeSort fun a b => a ≤ b
/-- The cores of a group of `c` cores on the clusters of a list from its head (R367). -/
def layGroup (s : State) (r : TaskRec) : Nat → List Nat → Option (List Nat)
  | _, [] => none
  | c, cl :: t =>
    if c ≤ 8 then some (takeCores s r cl c)
    else (layGroup s r (c - 8) t).map fun l => coresOf cl ++ l
/-- The cores of the groups of a record from the head of a list of clusters, one list for each group (R367). -/
def layGroups (s : State) (r : TaskRec) : List (Nat × Nat) → List Nat → Option (List (List Nat))
  | [], _ => some []
  | g :: t, cs =>
    match layGroup s r g.2 cs with
    | none => none
    | some l => (layGroups s r t (cs.drop (groupSpan g.2))).map fun m => l :: m
/-- A list of cores cut into the groups of a record. -/
def cutGroups : List (Nat × Nat) → List Nat → List (List Nat)
  | [], _ => []
  | g :: t, l => l.take g.2 :: cutGroups t (l.drop g.2)
/-- The candidate at a position: the cores of each group (R367). While a reservation at that position holds, its cores stay the
candidate's (R369). -/
def candidateAt (s : State) (r : TaskRec) (cs : List Nat) (p : Nat) : Option (List (List Nat)) :=
  match layGroups s r r.groups (cs.drop p) with
  | none => none
  | some l =>
    match s.reeve.reserves.find? fun v => v.ticket == r.ticket && (v.cores.head?.map clusterOf) == cs[p]? with
    | some v => some (cutGroups r.groups v.cores)
    | none => some l
/-- Positions in cyclic order from RP (R368). -/
def cyclicFrom (n rp : Nat) : List Nat := (List.range n).map fun i => (rp + i) % n
/-- The candidates of a record in cyclic order from RP, without those that touch a cluster of a failed attempt
(R367, R368, R380). -/
def candidates (s : State) (r : TaskRec) : List (Nat × List (List Nat)) :=
  let cs := partClusters s r.part
  (cyclicFrom cs.length (s.reeve.rp.get 0 r.part)).filterMap fun p =>
    match candidateAt s r cs p with
    | some l => if l.flatten.any fun k => r.avoid.contains (clusterOf k) then none else some (p, l)
    | none => none
/-- A candidate is feasible (R367). -/
def feasible (s : State) (r : TaskRec) (l : List (List Nat)) : Bool := l.flatten.all (available s r)
/-- The largest stress code among the cores that a candidate takes (R368, R447). -/
def scoreOf (s : State) (l : List (List Nat)) : Nat :=
  (l.flatten.map fun k => ((s.cluster (clusterOf k)).sense.get {} (lcoreOf k)).stress).foldl max 0
/-- The candidate on which a record is placed: the lowest score among the first DEV + 1 feasible ones (R368). -/
def chooseCandidate (s : State) (r : TaskRec) : Option (Nat × List (List Nat)) :=
  (((candidates s r).filter fun c => feasible s r c.2).take (r.dev + 1)).foldl (fun b c =>
    match b with
    | none => some c
    | some x => if scoreOf s c.2 < scoreOf s x.2 then some c else b) none
/-- The candidate that a head reserves: the fewest cores not available, the earliest in the order (R369). -/
def reserveCandidate (s : State) (r : TaskRec) : Option (List Nat) :=
  let bad := fun (l : List (List Nat)) => (l.flatten.filter fun k => !available s r k).length
  ((candidates s r).foldl (fun b c =>
    match b with
    | none => some c.2
    | some x => if bad c.2 < bad x then some c.2 else b) none).map List.flatten
/-- The reservation of a partition's head: kept while the head stays, else made anew; none when it can be placed (R369). -/
def renewReserve (s : State) (p : Nat) : State :=
  let put := fun (l : List Reserve) => { s with reeve := { s.reeve with reserves := l } }
  let others := s.reeve.reserves.filter fun v => v.part != p
  match eligible s p with
  | [] => put others
  | h :: _ =>
    if s.reeve.reserves.any fun v => v.part == p && v.ticket == h.ticket then s
    else
      let s := put others
      if (chooseCandidate s h).isSome then s
      else
        match reserveCandidate s h with
        | some ks => { s with reeve := { s.reeve with reserves := others ++ [{ part := p, ticket := h.ticket, cores := ks }] } }
        | none => s

/-! ### Placement (R28, R371, R379, R380) -/

/-- A core of a placed record, with its group, its rank and the size of its group. -/
structure Seat where
  core : Nat
  group : Nat
  rank : Nat
  size : Nat
  eoff : Nat
  deriving DecidableEq, Repr
/-- The seats of a record whose groups take these cores (R367). -/
def seatsOf (r : TaskRec) (l : List (List Nat)) : List Seat :=
  ((l.zip r.groups).mapIdx fun i g =>
    g.1.mapIdx fun j k => ({ core := k, group := i, rank := j, size := g.2.2, eoff := g.2.1 } : Seat)).flatten
/-- The registers that a task starts with (R28). -/
def startCtx (r : TaskRec) (q : Seat) (args : Nat) : Ctx :=
  let x : Ctx := {}
  let x := (((x.writeG 1 (BitVec.ofNat 64 args)).writeG 2 (BitVec.ofNat 64 q.group)).writeG 3 (BitVec.ofNat 64 q.rank)).writeG 4
    (BitVec.ofNat 64 q.size)
  { x.writeG 5 (BitVec.ofNat 64 r.arglen) with pc := BitVec.ofNat 13 (r.entry / 8 + q.eoff), run := .ready, sup := r.sup }
/-- A physical range is zeroed, and no longer holds an error. -/
def zeroRange (s : State) (lo hi : Nat) : State :=
  { s with mem := memClear s.mem lo hi, poison := s.poison.filter fun x => x * 32 + 32 ≤ lo || hi ≤ x * 32 }
/-- At a placement in a cluster its spare core takes over the number of its failed core, the lowest of several (R7, R414;
DEDUCED, notes/assumptions/53.md). -/
def spareIn (s : State) (cl : Nat) : State :=
  match (if (s.cluster cl).spareUsed then none else (coresOf cl).find? fun j => (s.core j).failed) with
  | none => s
  | some j =>
    ((zeroRange s (tcmBase j) (tcmBase j + 0x20000)).updCore j fun x => { freshCore x with failed := false, lastPart := none }).updCluster cl
      fun c => { c with spareUsed := true }
/-- A core starts a task: the spare takes over a failed core of its cluster, TCM is zeroed for another partition's task, the image is
copied, and the control context starts (R28, R29). What the instruction store held beyond the image stays there
(DESIGN CHOICE, notes/assumptions/53.md). -/
def startCore (s : State) (r : TaskRec) (image : List Byte) (args : Nat) (q : Seat) : State :=
  let k := q.core
  let s := if isGran k then s else spareIn s (clusterOf k)
  let other := match (s.core k).lastPart with
    | some p => p != r.part
    | none => false
  let s := if other then zeroRange s (tcmBase k) (tcmBase k + 0x20000) else s
  let b := istoreBase k
  let s := s.exchanged 512 (tileOf k)
  let s := { s.write b image with poison := s.poison.filter fun x => x * 32 + 32 ≤ b || b + image.length ≤ x * 32 }
  let s := s.updCore k fun x =>
    { freshCore x with ctxs := [(0, startCtx r q args)], task := some r.ticket, group := q.group, rank := q.rank,
                       lastPart := some r.part }
  if isGran k then s else s.rearm (clusterOf k)

/-- The lowest snapshot slot of a die that no record holds (R380). -/
def freeSlot (s : State) (d : Nat) : Nat :=
  let used := s.reeve.recs.filterMap fun r => if r.die = d then r.snapshot.map Prod.fst else none
  ((List.range (used.length + 1)).find? fun n => !used.contains n).getD 0
/-- The address of the argument block that a task starts with, after the snapshot of a first placement (R380). -/
def takeSnapshot (s : State) (r : TaskRec) (block : List Byte) : Except Cause (Nat × TaskRec × State) :=
  let base := (s.reeve.dies.get {} r.die).snbase.toNat
  if !r.restart then .ok (r.args, r, s)
  else
    match r.snapshot with
    | some (_, a) => .ok (if r.restarted then a else r.args, r, s)
    | none =>
      let n := freeSlot s r.die
      let a := base + n * 4096
      if block.isEmpty then .ok (r.args, { r with snapshot := some (n, a) }, s)
      else
        match s.physWrite a block with
        | some s => .ok (r.args, { r with snapshot := some (n, a) }, s)
        | none => .error ((physBars s a block.length).getD .page)
/-- What a placement reads: the image, and the argument block (R371). A restarted attempt uses the snapshot (R380). -/
def loadRecord (s : State) (r : TaskRec) : Except Cause (List Byte × Nat × TaskRec × State) :=
  match recFetch s (recTables s r) r.code r.codelen with
  | .error c => .error c
  | .ok (image, s) =>
    match (if r.restarted then .ok ([], s) else recFetch s (recTables s r) r.args r.arglen) with
    | .error c => .error c
    | .ok (block, s) =>
      match takeSnapshot s r block with
      | .error c => .error c
      | .ok (args, r, s) => .ok (image, args, r, s)
/-- A record is placed on cores: STATE 1 is written, the image is loaded and every core starts; where loading fails, the record
ends with STATE 4 and no core starts (R371). -/
def placeRec (s : State) (r : TaskRec) (l : List (List Nat)) : State :=
  let s := match putStatus s r 1 0 0 with
    | .ok s => s
    | .error _ => s
  let s := { s with reeve := { s.reeve with reserves := s.reeve.reserves.filter fun v => v.ticket != r.ticket } }
  match loadRecord s r with
  | .error c =>
    let s := match putStatus s r 4 0 c.code with
      | .ok s => s
      | .error _ => s
    s.dropRec r.ticket
  | .ok (image, args, r, s) =>
    let s := s.updRec r.ticket fun _ => { r with state := .running, cores := l.flatten, retired := [] }
    (seatsOf r l).foldl (fun s q => startCore s r image args q) s

/-- The record of a partition that is placed next, with its position and cores: the head where it can be, else the first later one
that can be (R368, R369). -/
def nextPlacement (s : State) (p : Nat) : Option (TaskRec × Nat × List (List Nat)) :=
  (eligible s p).findSome? fun r => (chooseCandidate s r).map fun c => (r, c.1, c.2)
/-- The placement pointer after a placement at a position (R368). -/
def rpAfter (r : TaskRec) (p : Nat) : Nat := p + (r.groups.map fun g => groupSpan g.2).sum
/-- TASK_PLACE: the four Reeves place as one dispatcher; a die's Reeve places the next record of a partition when it lies in its
pool (R362, R366 to R371). -/
def execTaskPlace (die : Nat) (s : State) : Host.Outcome State Fault Refusal :=
  .next (if s.io.frz then s
    else
      let ps := ((s.reeve.recs.filter fun r => r.kind != 2 && r.state == .queued).map fun r => r.part).eraseDups.mergeSort fun a b => a ≤ b
      let s := ps.foldl renewReserve s
      match (ps.filter fun p => !s.halting p).findSome? fun p =>
          match nextPlacement s p with
          | some x => if x.1.die = die then some x else none
          | none => none with
      | none => s
      | some (r, p, l) =>
        let n := (partClusters s r.part).length
        placeRec { s with reeve := { s.reeve with rp := s.reeve.rp.put r.part (rpAfter r p % max 1 n) } } r l)
/-- GRANARY_PROGRAM_PLACE: the first record of a Granary in order is placed when its control context is free (R370). -/
def execGranaryProgramPlace (gran : Nat) (s : State) : Host.Outcome State Fault Refusal :=
  let k := 3072 + gran
  .next (if s.io.frz ∨ 128 ≤ gran ∨ (s.ctx k 0).run ≠ .free ∨ (s.core k).failed then s
    else
      match (s.reeve.recs.filter fun r => r.kind == 2 && r.gran == gran && r.state == .queued).mergeSort (selectBefore s) with
      | [] => s
      | r :: _ => placeRec s r [[k]])

/-! ### Deadlines (R374, R375) -/

/-- A record is appended to the late queue, or dropped and counted (R374, R384). -/
def lateAppend (s : State) (r : TaskRec) : State :=
  let q := s.reeve.late
  let put := fun (s : State) (q : Area) => { s with reeve := { s.reeve with late := q } }
  let bs := toBytes 8 r.status ++ toBytes 8 (s.tower.toNat % 2 ^ 48 + r.state.code * 2 ^ 48)
  if q.size = 0 ∨ (q.tail + 1) % q.size = q.head then put s { q with drop := capped 65535 (q.drop + 1) }
  else
    match s.physWrite (q.base.toNat + q.tail * 16) bs with
    | none => put s { q with drop := capped 65535 (q.drop + 1) }
    | some s => put s { q with tail := (q.tail + 1) % q.size }
/-- A task in STATE 0 or 1 is late and not marked yet (R374). -/
def isLate (s : State) (r : TaskRec) : Bool := r.hasdl && !r.late && !r.given && decide (recKey s r < 0)
/-- A task is marked late: LATE, a record of the late queue, and event 1 (R374, R437). -/
def markLate (s : State) (r : TaskRec) : State := (lateAppend (s.updRec r.ticket fun r => { r with late := true }) r).raise 1
/-- TASK_LATE (R374). -/
def execTaskLate (ticket : Nat) (s : State) : Host.Outcome State Fault Refusal :=
  .next (if s.io.frz then s
    else
      match s.rec? ticket with
      | none => s
      | some r => if isLate s r then markLate (putFlags s { r with late := true }) r else s)

/-- The word that `tlate` writes (R375). -/
def lateWord (s : State) (r : TaskRec) : Nat :=
  r.late.toNat * 2 ^ 63 + r.hasdl.toNat * 2 ^ 62 + (if r.hasdl then min (recKey s r).toNat (2 ^ 47 - 1) else 2 ^ 47 - 1)
/-- The record of the issuing core's task. -/
def State.myRec (s : State) : Option TaskRec := s.my.task.bind s.rec?
/-- The word that `tlate` writes for the issuing task; for a core without a task, that of a task without a deadline
(DEDUCED, notes/assumptions/31.md). -/
def State.lateValue (s : State) : Word :=
  BitVec.ofNat 64 (match s.myRec with
    | some r => lateWord s r
    | none => 2 ^ 47 - 1)
/-- `tlate` (R375). -/
def execTlate (d : R5) (s : State) : Host.Outcome State Fault Refusal := .next (s.setG d s.lateValue)
/-- A deadline given by `tlate.set` (R375). -/
def TaskRec.setDeadline (r : TaskRec) (g : Word) : TaskRec :=
  if g.getLsbD 63 then { r with hasdl := false, deadline := 2 ^ 48 - 1 } else { r with hasdl := true, deadline := Bits g 47 0 }
/-- `tlate.set` (R375). -/
def execTlateSet (d a : R5) (s : State) : Host.Outcome State Fault Refusal :=
  let g := s.srcG a
  .next (if Bits g 62 48 ≠ 0 then s.trap .lateForm
    else
      let s' := match s.myRec with
        | some r => s.updRec r.ticket fun r => r.setDeadline g
        | none => s
      s'.setG d s.lateValue)

/-! ### Retirement (R27, R120, R376, R377) -/

/-- The narrowest of core, clu, die and dev that includes a core and a list of cores (R376). -/
def scopeOver (k : Nat) (l : List Nat) : Scope :=
  if l.all fun j => scopeOf k j == .core then .core
  else if l.all fun j => scopeOf k j == .core || scopeOf k j == .clu then .clu
  else if l.all fun j => scopeOf k j != .dev then .die
  else .dev
/-- The release scope of a task's end (R376). -/
def tendScope (s : State) (k : Nat) (r : TaskRec) : Scope :=
  match r.consumer.bind s.rec? with
  | some c => if c.state = .running ∧ !c.cores.isEmpty then scopeOver k c.cores else .dev
  | none => .dev
/-- The status record of a finished task is written, and a late task is marked in the same write (R27, R374). -/
def tendStatus (s : State) (r : TaskRec) (exit : Nat) : Except (Cause × Nat) State :=
  let late := isLate s r
  match putStatus s { r with late := r.late || late } 2 exit 0 with
  | .error c => .error c
  | .ok s => .ok (if late then markLate s r else s)
/-- A future on the host or on a peer is filled there: what it held is not known here (DEDUCED, notes/assumptions/13.md). -/
def fillOuter (s : State) (pa exit : Nat) : Fill × State :=
  let n := Config.pick s.freeCtr % 3
  let s := s.spend
  if n = 0 then (.done, (s.writeN pa 8 exit).writeN (pa + 8) 8 1) else if n = 1 then (.full, s) else (.malformed, s)
/-- The completion future of a task is filled with EXIT, as `fwr` fills one; a full or malformed cell is flagged (R27, R156). -/
def tendFuture (s : State) (r : TaskRec) (exit : Nat) : Except (Cause × Nat) State :=
  if r.compl = 0 then .ok s
  else
    match recAddr s (recTables s r) true r.compl with
    | .error c => .error c
    | .ok pa =>
      if s.poison.contains (pa / 32) then .error (.poison, 0)
      else
        let flag := fun (s : State) (r : TaskRec) =>
          match recWrite s (recTables s r) (r.status + 4) (toBytes 4 r.flags) with
          | .ok s => Except.ok (s.updRec r.ticket fun _ => r)
          | .error c => .error c
        match (match homeAt pa with
          | .host | .peer .. => fillOuter s pa exit
          | _ => fillFuture (llcTouch (s.exchanged 512 (homeTile pa)) pa .modify true) (homeTile pa) pa exit false) with
        | (.done, s) => .ok s
        | (.full, s) => flag s { r with cfull := true }
        | (.malformed, s) => flag s { r with cbad := true }

/-- The control context of a core becomes free, and the core with it (R22, R27, R377). -/
def freeTask (s : State) (k : Nat) : State :=
  let s := s.updCore k fun x => { x with ctxs := x.ctxs.put 0 {}, task := none, gl := {} }
  if isGran k then s else s.rearm (clusterOf k)
/-- A step of `tend` has faulted: its control context is told, without a log entry (R120). -/
def tendFault (s : State) (k : Nat) (c : Cause × Nat) : State :=
  s.report k 0 { cause := c.1, info := accessInfo c.1 true c.2 0, stamp := s.stamp, ofTend := true }

/-- Steps 4 and 5 for a task of KIND 0 or 2 (R27). -/
def tendSingle (s : State) (k : Nat) (r : TaskRec) : State :=
  let x := s.ctx k 0
  if x.tendStep = 3 then
    match tendStatus s r x.exit.toNat with
    | .error c => tendFault s k c
    | .ok s => (s.updCtx k 0 fun x => { x with tendStep := 4 }).updRec r.ticket fun r => { r with given := true }
  else
    match tendFuture s r x.exit.toNat with
    | .error c => tendFault s k c
    | .ok s => (freeTask s k).dropRec r.ticket
/-- Steps 4 and 5 of a gang, by the Reeve, when its last core has retired (R377). -/
def gangEnd (s : State) (r : TaskRec) : State :=
  let s := match tendStatus s r r.exit.toNat with
    | .ok s => s
    | .error _ => s.countRej r.die
  let r := (s.rec? r.ticket).getD r
  let s := match tendFuture s r r.exit.toNat with
    | .ok s => s
    | .error _ => s.countRej r.die
  s.dropRec r.ticket
/-- The seat of a core in its task: its place among the cores in the order of groups and ranks (R28, R377). -/
def TaskRec.seat (r : TaskRec) (x : Core) : Nat := ((r.groups.take x.group).map fun g => g.2).sum + x.rank
/-- A core of a gang retires after step 3 (R377). -/
def tendGang (s : State) (k : Nat) (r : TaskRec) : State :=
  let x := s.core k
  let lead := x.group = 0 ∧ x.rank = 0
  let r := { r with retired := r.retired ++ [r.seat x], exit := if lead then (s.ctx k 0).exit else r.exit }
  let s := (freeTask s k).updRec r.ticket fun _ => r
  if (List.range r.cores.length).all r.retired.contains then gangEnd s r else s

/-- The control context of a core is in the steps of `tend`, with no report to take first (R120). -/
def tending (s : State) (k : Nat) : Bool := (s.ctx k 0).run == .blocked .tend && (s.ctx k 0).nextReport.isNone
/-- Steps 1 to 3 of `tend`: helpers free, the queues joined as a `qfence` in its place joins them, dirty set released (R27, R45, R376). -/
def tendRelease (s : State) (k : Nat) (sc : Scope) : State :=
  let x := s.core k
  if liveHelpers x 1023 || qfenceWaits x 31 ((s.ctx k 0).since.getD s.stamp) then s
  else
    match releaseTry s k 0 sc with
    | (false, s) => s
    | (true, s) => s.updCtx k 0 fun x => { x with tendStep := 3 }
/-- TEND_RETIRE: the retirement of a core's task goes on by one step (R27, R120, R377). -/
def execTendRetire (k : Nat) (s : State) : Host.Outcome State Fault Refusal :=
  .next (if s.coreStill k || !tending s k then s
    else
      match (s.core k).task.bind s.rec? with
      | none => if (s.ctx k 0).tendStep < 3 then tendRelease s k .dev else freeTask s k
      | some r =>
        if (s.ctx k 0).tendStep < 3 then tendRelease s k (tendScope s k r)
        else if r.kind = 1 then tendGang s k r
        else tendSingle s k r)

/-! ### The stall census (R40, R41, R381) -/

/-- A message has its source or its destination in a domain. -/
def Msg.within (ms : List Nat) (m : Msg) : Bool := ms.contains m.src || ms.contains m.dst
/-- A tile that is not known yet. -/
def anyTile : Nat := 520
/-- The tiles to which an engine's access to `n` bytes sends messages: those of the tables that it walks, and of the homes. -/
def accessTiles (s : State) (k va n : Nat) : List Nat :=
  (pieces va n).flatMap fun q =>
    (if look s k true false q.1 == .miss then (walkAsks s (clusterOf k) q.1).map homeTile else []) ++
      match engLook s k true false q.1 with
      | .ok pa _ => [homeTile pa]
      | .miss | .bad .. => []
/-- The tiles to which a copy still sends messages: those of its elements from its next row on, and of its status record. -/
def copyTiles (s : State) (k : Nat) (m : Cmd) : List Nat :=
  let r := m.copy.regs
  let side := fun (a : Option Int) (n : Nat) => (a.map fun a => accessTiles s k (vaOf a) n).getD []
  (((List.range r.rows).drop m.prog).flatMap fun j =>
    (r.row (isGran k) j).flatMap fun e => side e.src (r.sty.w / 8) ++ side e.dst (r.dty.w / 8)) ++
      (r.sta.map fun a => accessTiles s k a 32).getD []
/-- The messages of a list that an interface may inject, each before or after the others of the list. -/
def freeOuts (s : State) (i : Nat) : List Msg → List Msg → List Msg
  | _, [] => []
  | before, m :: t => if mayInject s i before m then m :: freeOuts s i before t else freeOuts s i (before ++ [m]) t
/-- The messages of a router and of its interface that can move: into the router, out of it, or on to their unit. Those of a stopped
partition, and what a due stop holds back, wait for its resume (R406). -/
def movable (s : State) (t : Nat) : List Msg :=
  let x := s.iface t
  let r := s.router t
  freeOuts s t [] (x.out.filter fun m => !s.tileHalting m.src && !s.tileHalting m.dst) ++
    (x.inbox.filter fun m => deliverable s m && !s.tileStopped m.src && !s.tileStopped m.dst) ++ x.acks ++
    ((r.spill.map Prod.snd).filter fun m => hasRoom r 8 m.cls) ++
    r.reserved.toList ++ ((allHeads r).filter fun q => (wants s t q).isSome).map fun q => q.msg
/-- The tiles to which the accesses and commands that a core has under way are about to send messages: stores in its write buffer, walks of
operations and of fetches, cache maintenance, the copy at its queue's head, gathers and scatters, the waves of a tree walk, a send whose
slot has come, a collective that starts or goes on (R343; DEDUCED, notes/assumptions/26.md). -/
def unitTiles (s : State) (k : Nat) : List Nat :=
  let x := s.core k
  let free := fun (q : Nat) => (Tab.find x.holds q).isNone
  let some' := fun (b : Bool) => if b then [anyTile] else []
  (x.wb.map fun e => homeTile (e.sector * 32)) ++ ((copyHead x).map fun m => copyTiles s k m).getD [] ++
    ((x.ops ++ x.fetches).flatMap fun e => if e.2.stage = .walk ∧ e.2.flt.isNone then accessTiles s k e.2.ea.toNat e.2.size else []) ++
    (x.ops.flatMap fun e => if isMaint e.2.instr ∧ e.2.prog = 0 ∧ e.2.flt.isNone then
      (mappedParts s k e.2.ea.toNat ((e.2.vals[1]?).getD 0).toNat).map fun q => homeTile q.2.1 else []) ++
    some' (free 0 && x.vq.any fun m => m.flt.isNone && vMem m.instr) ++
    some' (free 1 && x.mq.any fun m => m.flt.isNone && m.started && !m.mill.paused && (walkOf m.instr).isSome) ++
    ((dueSend s (clusterOf k)).toList.filterMap fun e => if e.1 = k ∧ (s.cluster (clusterOf k)).phase.xp then some e.2.dst else none) ++
    some' (free 3 && x.xq.head?.any fun m => m.flt.isNone && !isSend m && !m.started) ++
    some' (s.gatherings.any fun g => g.closed && g.members.any fun c => c.core == k && decide (c.stage < 2))
/-- A core is about to send a message whose source or destination lies in a domain; an access inside one tile sends none. -/
def unitBusy (s : State) (ms : List Nat) (k : Nat) : Bool :=
  (unitTiles s k).any fun t => if ms.contains (tileOf k) then t != tileOf k else t == anyTile || ms.contains t
/-- A message of a domain can be injected, forwarded or ejected, on the open plane or on the lane, or a unit of any core is about to send
one. One that stands with no way on does not bar a stall (R40; DEDUCED, notes/assumptions/26.md). -/
def domainBusy (s : State) (ms : List Nat) : Bool :=
  ((s.net.ifaces.map Prod.fst ++ s.net.routers.map Prod.fst).eraseDups.any fun t => (movable s t).any (Msg.within ms)) ||
    s.net.ifaces.any (fun e => !s.tileStopped e.1 &&
      ((ms.contains e.1 && !(e.2.arr.isEmpty && e.2.ctl.isEmpty)) || e.2.arr.any fun a => ms.contains (tileOf a.core))) ||
    (s.net.byway.toList.any fun b => Msg.within ms b.2) ||
    (ms.any fun j => !(s.cluster j).lane.isEmpty || !(s.cluster j).tlbinvs.isEmpty) || s.cores.any fun e => unitBusy s ms e.1
/-- WAIT and OBJECT of a context blocked in an instruction that a census names (R41). -/
def censusWait (s : State) (k : Nat) : Run → Option (Nat × Nat)
  | .blocked (.sacq n) => some (1, n)
  | .blocked (.bwait n) => some (2, n)
  | .blocked (.frd e) => some (3, ((s.core k).ops.get {} e).ea.toNat)
  | .blocked (.join m) => some (4, m)
  | .blocked (.mwait ..) | .blocked .sstep | .blocked .wfi | .blocked .tend | .blocked (.acq _) => none
  | .free | .ready | .stalled | .halted _ | .delegated => none
/-- The 16 bytes of a blocked context in a census (R41). -/
def censusEntry (s : State) (e : Nat × Nat) : List Byte :=
  let w := (censusWait s e.1 (s.ctx e.1 e.2).run).getD (0, 0)
  toBytes 8 (clusterOf e.1 + lcoreOf e.1 * 2 ^ 9 + e.2 * 2 ^ 12 + w.1 * 2 ^ 16) ++ toBytes 8 w.2
/-- A census is written, or dropped and counted (R381). -/
def censusWrite (s : State) (es : List (Nat × Nat)) : State :=
  let q := s.reeve.census
  let put := fun (s : State) (q : Area) => { s with reeve := { s.reeve with census := q } }
  let n := es.length + 1
  if q.size = 0 ∨ q.size < q.tail + n then put s { q with drop := capped 65535 (q.drop + 1) }
  else
    match s.physWrite (q.base.toNat + q.tail * 16) (toBytes 8 es.length ++ toBytes 8 (s.tower.toNat % 2 ^ 48) ++ es.flatMap (censusEntry s)) with
    | none => put s { q with drop := capped 65535 (q.drop + 1) }
    | some s => put s { q with tail := q.tail + n }
/-- DOMAIN_STALL: the domain of a cluster, the lowest of its domain, is stalled and not censused yet (R40, R41). Where members of a domain
hold different LEVELs, the lowest one's own LEVEL says which domain it watches, and a domain that another member watches at its own LEVEL
is censused only where that member is the lowest of it (DEDUCED, notes/assumptions/26.md). -/
def execDomainStall (cl : Nat) (s : State) : Host.Outcome State Fault Refusal :=
  let ms := domainOfCluster s cl
  let es := ms.flatMap (liveContexts s)
  .next (if s.io.frz ∨ 384 ≤ cl ∨ ms.head? ≠ some cl ∨ (s.cluster cl).census ∨ es.isEmpty ∨
        !(es.all fun e => (censusWait s e.1 (s.ctx e.1 e.2).run).isSome) ∨ domainBusy s ms then s
    else ((censusWrite s es).updCluster cl fun c => { c with census := true }).raise 2)

end Sys2Proof.Machine
end

