-- ==== Sys2Proof/Machine/Curfew.lean ====
section
/-! DEFINITION. The Curfew: stops and resumes of partitions, and the network save area (R405 to R408, R412, R439). -/

namespace Sys2Proof.Machine

/-! ### The request (R405) -/

/-- The cores of a partition. -/
def partCores (s : State) (p : Nat) : List Nat := (partClusters s p).flatMap coresOf
/-- A request of `curf` is malformed, or names a partition that is in the state asked for or has a request pending (R405). -/
def curfBad (s : State) (gd gb : Word) : Bool :=
  let p := Bits gd 5 0
  let op := Bits gd 9 8
  Bits gd 7 6 != 0 || Bits gd 63 10 != 0 || (partClusters s p).isEmpty || decide (2 ≤ op) || gb.toNat % 4096 != 0 ||
    s.io.stopped.contains p == (op == 0) || s.io.curfews.any fun c => c.part == p
/-- `curf`: the Curfew tree accepts the request (R57, R405). -/
def execCurf (d a b : R5) (s : State) : Host.Outcome State Fault Refusal :=
  let gd := s.srcG d
  .next (s.privileged fun s =>
    if curfBad s gd (s.srcG b) then s.trap .curfForm
    else
      let c : Curfew := { part := Bits gd 5 0, resume := Bits gd 9 8 == 1, time := (s.srcG a).toNat, area := (s.srcG b).toNat }
      { s with io := { s.io with curfews := s.io.curfews ++ [c] } })

/-! ### Halting and resuming contexts (R22, R406, R408) -/

/-- A context that the resume of its partition returns to the state it held. -/
def Run.unhalt : Run → Run
  | .halted .ready => .ready
  | .halted .stalled => .stalled
  | .halted (.blocked w) => .blocked w
  | .halted .delegated => .delegated
  | .free => .free
  | .ready => .ready
  | .stalled => .stalled
  | .blocked w => .blocked w
  | .delegated => .delegated
/-- The number of a state before the halt, in the order of R22 (R412). -/
def Run.number : Run → Nat
  | .free => 0
  | .ready | .halted .ready => 1
  | .stalled | .halted .stalled => 2
  | .blocked _ | .halted (.blocked _) => 3
  | .delegated | .halted .delegated => 4
/-- Bytes 0x08 to 0x7F of a halt record: tower time, the core's cycle counter, message counts, and the contexts (R406, R412). -/
def haltBytes (x : Core) (time cycles : Nat) : List Byte :=
  toBytes 8 time ++ toBytes 8 cycles ++ toBytes 8 x.sent ++ toBytes 8 x.recv ++
    (List.range 11).flatMap fun c =>
      let y := x.ctxs.get {} c
      toBytes 8 (y.pc.toNat + y.run.number * 2 ^ 16)
/-- A walk completes the wave in progress, at most `fuel` more of its steps (R293). -/
def finishWave (k : Nat) : Nat → State → State
  | 0, s => s
  | fuel + 1, s =>
    match millHead (s.core k) with
    | none => s
    | some m => if m.started && m.mill.steps != 0 then finishWave k fuel (oneStep s k) else s
/-- The steps of a wave at most: 64 rows, each a group of its own, with at most 2^16 outputs and 2^16 inputs
(R292). -/
def waveSteps : Nat := 64 * 2 ^ 12 * 2 ^ 11
/-- The units of a core stop: a started `sisect` with its progress, the Mill at the end of its wave (R234, R293). Gathers and scatters that
have not begun performing accesses return to the head of their queue (R234). -/
def haltUnits (s : State) (k : Nat) : State :=
  let s := finishWave k waveSteps s
  let s := ((s.core k).vq.filter fun m => m.started).foldl (fun s m => sisectStop s k m) s
  s.updCore k fun x => { x with vq := x.vq.map fun m => { m with started := false } }
/-- A core halts: its units stop, its halt record is written, and its contexts stop. The cycle counter is a free value
(DEDUCED, notes/assumptions/8.md). -/
def haltCore (s : State) (k : Nat) : State :=
  let s := haltUnits s k
  let rec' := toBytes 8 0 ++ haltBytes (s.core k) s.tower.toNat (Config.freeWord s.freeCtr).toNat
  let s := s.spend
  let s := s.updCluster (clusterOf k) fun c => { c with haltRec := c.haltRec.put (lcoreOf k) rec' }
  s.updCore k (mapRuns Run.halt)

/-! ### When the units have finished (R234, R323, R354, R406) -/

/-- A started vector instruction must complete before the stop: every one but a gather, a scatter and `sisect` (R234). -/
def mustComplete (m : Cmd) : Bool :=
  m.started &&
    match m.instr with
    | .vgat .. | .vsct .. | .sisect .. => false
    | _ => true
/-- The units of a partition have finished what a stop lets them finish (DEDUCED, notes/assumptions/45.md). -/
def unitsDone (s : State) (p : Nat) : Bool :=
  let cs := partClusters s p
  let mine := fun (k : Nat) => !isGran k && cs.contains (clusterOf k)
  (partCores s p).all (fun k => !(s.core k).vq.any mustComplete) &&
    (s.clusters.all fun e => e.2.lane.all fun q => !cs.contains q.src && !cs.contains q.dst) &&
    !(s.net.byway.toList.any fun b => Msg.within cs b.2) &&
    !(s.net.routers.any fun e => e.2.reserved.toList.any (Msg.within cs)) &&
    (s.io.pcie ++ s.io.peerMsgs).all (fun o => !mine o.access.core) &&
    s.net.ifaces.all fun e =>
      e.2.arr.all (fun a => !mine a.core) && e.2.acks.all (fun m => !Msg.within cs m) &&
        (!cs.contains e.1 || (e.2.arr.isEmpty && e.2.ctl.isEmpty))

/-! ### The network save area (R407) -/

/-- The position of a router on the Lantern's ring (R347). -/
def ringPos (t : Nat) : Nat :=
  match posOf t with
  | (d, c, r) => if d = 4 then 512 + c else d * 128 + c * 8 + r
/-- Where a slot lies in the area. -/
def slotOffset (t j : Nat) : Nat := ringPos t * 18432 + j * 288
/-- The offset of the sequence state, and the length of the area. -/
def seqOffset : Nat := 9584640
def areaBytes : Nat := 11747840
/-- The entry of a pair: next number to assign and next to deliver, of both spaces. -/
def seqEntry (t : Tab Pair) (pair : Nat) : Nat :=
  let f := t.get {} (2 * pair)
  let r := t.get {} (2 * pair + 1)
  f.next % 65536 + f.deliver % 65536 * 2 ^ 16 + r.next % 65536 * 2 ^ 32 + r.deliver % 65536 * 2 ^ 48
/-- The pairs of a table of pairs. -/
def pairsOf (t : Tab Pair) : List Nat := (t.map fun e => e.1 / 2).eraseDups
/-- A byte of an area may be written: it lies in memory, and in no shadow stack (R106). -/
def areaByte (s : State) (pa : Nat) : Bool :=
  match homeAt pa with
  | .nowhere | .regs .. => false
  | .scratch cl off => decide (off < (s.cluster cl).ways.s * 0x40000)
  | .host => s.io.link
  | .peer n _ => peerUp s n
  | .tcm .. | .istore .. | .device => !inShadowPa pa
/-- Memory with the headers of every slot and the sequence state of an area zero. -/
def blankArea (s : State) (a : Nat) : List Host.Cell :=
  s.mem.filter fun c => c.1 < a || decide (a + areaBytes ≤ c.1) || (decide (c.1 - a < seqOffset) && decide (32 ≤ (c.1 - a) % 288)) ||
    !areaByte s c.1
/-- Bytes of an area written. -/
def areaPut (s : State) (a : Nat) (bs : List Byte) : State :=
  { s with mem := (bs.mapIdx fun i b => (a + i, b)).foldl (fun m e => if areaByte s e.1 then memSet m e.1 e.2 else m) s.mem }
/-- The bytes of a used slot: header and payload are in the hardware's own form (DEDUCED, notes/assumptions/19.md). -/
def slotBytes (id off : Nat) : List Byte := (List.range 288).map fun i => Config.netSaveByte id (off + i)
/-- The spans of an area that are written and read: the headers of all slots, the sequence state, and the rest of the used slots. -/
def areaSpans (im : NetImage) : List (Nat × Nat) :=
  (List.range 33280).map (fun n => (n * 288, 32)) ++ (List.range 33800).map (fun n => (seqOffset + n * 64, 64)) ++
    im.slots.flatMap fun q => (pieces (slotOffset q.1 q.2.1 + 32) 256).map fun p => (p.1, p.2.2)
/-- The home slices take the accesses to an area into account (R156). -/
def areaTouch (s : State) (a : Nat) (im : NetImage) (write : Bool) : State :=
  (areaSpans im).foldl (fun s q => if write then llcWrite s (a + q.1) q.2 else llcTouch s (a + q.1) .read true) s
/-- An area written from an image, where its bytes are memory that may be written (R106, R156, R407). -/
def writeArea (s : State) (a : Nat) (im : NetImage) : State :=
  let s := areaTouch s a im true
  let s := { s with mem := blankArea s a }
  let s := im.slots.foldl (fun s q => areaPut s (a + slotOffset q.1 q.2.1) (slotBytes im.id (slotOffset q.1 q.2.1))) s
  (pairsOf im.pairs).foldl (fun s q => areaPut s (a + seqOffset + q * 8) (toBytes 8 (seqEntry im.pairs q))) s
/-- The area holds what a stop wrote. -/
def areaHolds (s : State) (a : Nat) (im : NetImage) : Bool :=
  im.slots.all (fun q => s.read (a + slotOffset q.1 q.2.1) 288 == slotBytes im.id (slotOffset q.1 q.2.1)) &&
    (pairsOf im.pairs).all fun q => s.readN (a + seqOffset + q * 8) 8 == seqEntry im.pairs q

/-- The packets of a partition in the routers, with their slots. -/
def slotsOf (s : State) (cs : List Nat) : List (Nat × Nat × Msg) :=
  s.net.routers.flatMap fun e => (((e.2.pkts.map fun p => p.msg).filter (Msg.within cs)).mapIdx fun j m => (e.1, j, m))
/-- A pair has an end in a partition. -/
def pairWithin (cs : List Nat) (key : Nat) : Bool := cs.contains (key / 2 / 520) || cs.contains (key / 2 % 520)
/-- What the network holds of a partition (R407). -/
def netImage (s : State) (p : Nat) : NetImage :=
  let cs := partClusters s p
  { id := s.freeCtr, part := p, slots := slotsOf s cs, pairs := s.net.pairs.filter fun e => pairWithin cs e.1
    out := s.net.ifaces.flatMap fun e => (e.2.out.filter (Msg.within cs)).map fun m => (e.1, m)
    inbox := s.net.ifaces.flatMap fun e => (e.2.inbox.filter (Msg.within cs)).map fun m => (e.1, m) }
/-- The network without what it holds of a partition. -/
def clearNet (s : State) (p : Nat) : State :=
  let cs := partClusters s p
  { s with net := { s.net with
      routers := s.net.routers.map fun e => (e.1, { e.2 with pkts := e.2.pkts.filter fun q => !Msg.within cs q.msg })
      pairs := s.net.pairs.filter fun e => !pairWithin cs e.1
      ifaces := s.net.ifaces.map fun e =>
        (e.1, { e.2 with out := e.2.out.filter fun m => !Msg.within cs m, inbox := e.2.inbox.filter fun m => !Msg.within cs m }) } }

/-! ### Stop and resume (R406, R408, R439) -/

/-- A request of a partition has completed: CFSTAT and event 4 (R439). -/
def curfewDone (s : State) (p : Nat) (resume : Bool) : State :=
  { s with io := { s.io with
      curfews := s.io.curfews.filter fun c => c.part != p
      stopped := if resume then s.io.stopped.filter fun q => q != p else s.io.stopped ++ [p]
      cfstat := s.io.cfstat.put p { done := true, op := resume.toNat, time := s.tower.toNat % 2 ^ 48 } } }.raise 4
/-- CURFEW_STOP: the due stop of a partition completes: cores halt, and packets fall out (R406, R407). -/
def execCurfewStop (p : Nat) (s : State) : Host.Outcome State Fault Refusal :=
  .next (if s.io.frz then s
    else
      match s.io.curfews.find? fun c => c.part == p && !c.resume && decide (c.time ≤ s.tower.toNat) with
      | none => s
      | some c =>
        if !unitsDone s p then s
        else
          let s := (partCores s p).foldl haltCore s
          let s := (partClusters s p).foldl (fun s cl => s.updCluster cl fun x => { x with arbP := 0, arbD := [], millP := 0, millLeft := 0 }) s
          let im := netImage s p
          let s := writeArea (clearNet s.spend p) c.area im
          curfewDone { s with netImages := s.netImages ++ [im] } p false)

/-- The routers read their slots and the sequence state of an area (R156, R408). Where the area does not hold what the stop wrote, which
packets are lost is free. -/
def loadArea (s : State) (p a : Nat) : State :=
  match s.netImages.reverse.find? fun im => im.part == p with
  | none => s
  | some im =>
    let ok := areaHolds s a im
    let s := areaTouch s a im false
    let n := s.freeCtr
    let slots := (im.slots.mapIdx fun i q => (i, q)).filterMap fun e =>
      if ok || Config.pick (n + e.1) % 2 == 0 then some e.2 else none
    let s := { s with freeCtr := if ok then n else n + im.slots.length,
                      netImages := s.netImages.filter fun x => x.id != im.id }
    let s := slots.foldl (fun s q => s.updRouter q.1 fun r => { r with spill := r.spill ++ [(p, q.2.2)] }) s
    let s := { s with net := { s.net with pairs := im.pairs.foldl (fun t e => t.put e.1 e.2) s.net.pairs } }
    let s := im.out.reverse.foldl (fun s e => s.updIface e.1 fun x => { x with out := e.2 :: x.out }) s
    im.inbox.reverse.foldl (fun s e => s.updIface e.1 fun x => { x with inbox := e.2 :: x.inbox }) s
/-- A core of a resumed partition goes on: contexts return to the states they held, and waits that are over end (R22, R406). -/
def resumeCore (s : State) (k : Nat) : State := wake (s.updCore k fun x => { mapRuns Run.unhalt x with saved := false }) k
/-- CURFEW_RESUME: the due resume of a partition: its routers read their slots, and once every slot is empty its contexts go on
(R408). -/
def execCurfewResume (p : Nat) (s : State) : Host.Outcome State Fault Refusal :=
  .next (if s.io.frz then s
    else
      match s.io.curfews.find? fun c => c.part == p && c.resume && decide (c.time ≤ s.tower.toNat) with
      | none => s
      | some c =>
        if !c.loaded then
          let s := loadArea s p c.area
          { s with io := { s.io with curfews := s.io.curfews.map fun x => if x.part = p then { x with loaded := true } else x } }
        else if s.net.routers.any fun e => !e.2.spill.isEmpty then s
        else (partCores s p).foldl resumeCore (curfewDone s p true))

end Sys2Proof.Machine
end

