-- ==== Sys2Proof/Machine/Save.lean ====
section
/-! DEFINITION. `save`, `rest` and the save engine, and `tlbinv` (R200, R404, R409 to R412). -/

namespace Sys2Proof.Machine

/-! ### The image (R410, R412) -/

/-- The core that gB of `save` and `rest` names. -/
def saveTarget (gb : Word) : Nat := Bits gb 8 0 * 8 + Bits gb 11 9
/-- CL of gB. -/
def saveCL (gb : Word) : Bool := gb.getLsbD 12
/-- A field of gB is bad, or gA is misaligned (R411). -/
def saveFormBad (ga gb : Word) : Bool := decide (384 ≤ Bits gb 8 0) || Bits gb 63 13 != 0 || ga.toNat % 256 != 0
/-- The target has a live context that is not halted (R22, R411). -/
def liveUnhalted (x : Core) : Bool :=
  x.ctxs.any fun e =>
    match e.2.run with
    | .free | .halted _ | .delegated => false
    | .ready | .stalled | .blocked _ => true
/-- The valid entries of a cluster's keep list: offset and length (R410). -/
def keepList (s : State) (cl : Nat) : List (Nat × Nat) :=
  (List.range 8).filterMap fun i =>
    let e := s.readN (tcmBase (cl * 8) + 0x1FF00 + 8 * i) 8
    let off := e % 2 ^ 22
    let len := e / 2 ^ 22 % 2 ^ 23
    if e.testBit 63 && e / 2 ^ 45 % 2 ^ 18 == 0 && len % 32 == 0 && off % 32 == 0 &&
      decide (off + len ≤ (s.cluster cl).ways.s * 0x40000) then some (off, len) else none
/-- The size of an image (R411). -/
def sizeOf (cl : Bool) (kept : List (Nat × Nat)) : Nat := if cl then 331776 + (kept.map fun r => r.2).sum else 327680
/-- The size of a saved image. -/
def Image.size (im : Image) : Nat := sizeOf im.cluster.isSome im.kept
/-- The image of a target as it stands: what `rest` restores (R409). -/
def takeImage (s : State) (k : Nat) (cl : Bool) : Image :=
  let h := (s.cluster (clusterOf k)).haltRec.get [] (lcoreOf k)
  let x := s.core k
  let word := clusterOf k + lcoreOf k * 2 ^ 9 + (s.cluster (clusterOf k)).part * 2 ^ 12 + cl.toNat * 2 ^ 18
  { id := s.freeCtr, core := x, tcm := s.read (tcmBase k) 131072, istore := s.read (istoreBase k) 65536
    cluster := if cl then some (s.cluster (clusterOf k)) else none
    kept := if cl then keepList s (clusterOf k) else []
    head := haltBytes x (ofBytes ((h.drop 8).take 8)) (ofBytes ((h.drop 16).take 8)) ++ toBytes 8 word ++ List.replicate 120 0 }
/-- An offset of an image lies in a region of the hardware's own form (R412). -/
def internalAt (cl : Bool) (x : Nat) : Bool :=
  (0x100 ≤ x && x < 0x5900) || (0x6000 ≤ x && x < 0x46000) || (cl && 0x50000 ≤ x && x < 0x51000)
/-- The bytes of the kept ranges, in keep-list order (R412). -/
def keptBytes (s : State) (cl : Nat) (kept : List (Nat × Nat)) : List Byte :=
  kept.flatMap fun r => s.read (scratchBase cl + r.1) r.2
/-- A byte of an image from 0x100 on (R412). -/
def imageAt (im : Image) (kept : List Byte) (x : Nat) : Byte :=
  if internalAt im.cluster.isSome x then Config.imageByte im.id x
  else if 0x51000 ≤ x then kept.getD (x - 0x51000) 0
  else 0
/-- The header of an image: VALID and the size, then what the halt record and the fields at 0x80 say (R412). -/
def imageHeader (im : Image) : List Byte := toBytes 8 (2 ^ 63 + im.size) ++ im.head

/-! ### The instructions (R411) -/

/-- The instruction takes its log entry, and the engine of the target's cluster starts (R397, R411). -/
def engineTake (s : State) (i : Instr) (vals : List Word) (cl off id : Nat) : State :=
  match s.my.freeEntry with
  | none => s.stall
  | some e =>
    let o : Op := { s.newOp i vals 0 0 [] with stage := .wait, prog := off }
    (s.updMy fun x => { x with ops := x.ops.put e o }).updCluster cl fun c => { c with engine := .busy s.cur.core e off id }
/-- A new image joins the saved ones. -/
def keepImage (s : State) (im : Image) : State := { s.spend with images := s.images ++ [im] }

/-- `save` (R411). Its writes come after the earlier loads of its context (R185). -/
def execSave (d a b : R5) (s : State) : Host.Outcome State Fault Refusal :=
  let (gd, ga, gb) := (s.srcG d, s.srcG a, s.srcG b)
  let k := saveTarget gb
  let cl := clusterOf k
  .next (s.privileged fun s =>
    if saveFormBad ga gb then s.trap .saveForm
    else if liveUnhalted (s.core k) then s.trap .saveState
    else if (s.cluster cl).engine ≠ .idle then s.trap .saveState
    else
      let im := takeImage s k (saveCL gb)
      if gd.toNat < im.size then s.trap .saveSize
      else if s.my.loadsPending s.cur.ctx s.now then s.stall
      else
        match s.my.freeEntry with
        | none => s.stall
        | some _ => engineTake (keepImage s im) (.save d a b) [gd, ga, gb] cl 0x100 im.id)
/-- `save.res` (R411). -/
def execSaveRes (d a b : R5) (s : State) : Host.Outcome State Fault Refusal :=
  let (gd, ga, gb) := (s.srcG d, s.srcG a, s.srcG b)
  let k := saveTarget gb
  let cl := clusterOf k
  .next (s.privileged fun s =>
    if saveFormBad ga gb then s.trap .saveForm
    else if liveUnhalted (s.core k) then s.trap .saveState
    else
      match (s.cluster cl).engine with
      | .paused t c area off id =>
        if t ≠ k ∨ area ≠ ga ∨ c ≠ saveCL gb then s.trap .saveState
        else if gd = 0 then s.updCluster cl fun x => { x with engine := .idle }
        else if s.my.loadsPending s.cur.ctx s.now then s.stall
        else engineTake s (.saveRes d a b) [gd, ga, gb] cl off id
      | .idle | .busy .. => s.trap .saveState)
/-- The target of `rest` may take it: its contexts are free, or halted and saved (R409, R411). -/
def mayRest (x : Core) : Bool := x.saved && !liveUnhalted x || x.ctxs.all fun e => e.2.run == .free
/-- `rest` (R411). -/
def execRest (d a b : R5) (s : State) : Host.Outcome State Fault Refusal :=
  let (gd, ga, gb) := (s.srcG d, s.srcG a, s.srcG b)
  let k := saveTarget gb
  let cl := clusterOf k
  .next (s.privileged fun s =>
    if saveFormBad ga gb then s.trap .saveForm
    else if !mayRest (s.core k) then s.trap .saveState
    else if (s.cluster cl).engine ≠ .idle then s.trap .saveState
    else if gd.toNat < sizeOf (saveCL gb) [] then s.trap .saveSize
    else
      let t :=
        match engRead s s.cur.core true ga.toNat 8 with
        | .error (c, _, l) => s.trap c (accessInfo c false l 0)
        | .ok (h, s) =>
          if !h.testBit 63 ∨ gd.toNat < h % 2 ^ 32 then s.trap .saveForm
          else engineTake s (.rest d a b) [gd, ga, gb] cl 0 0
      if s.inTurn t then t else s.stall)

/-! ### The engine (R411) -/

/-- An image is written from an offset on, 256 bytes at a time: the state, with the cause, the address and the offset of a fault. -/
def saveChunks (k ga : Nat) (im : Image) (kept : List Byte) : Nat → Nat → State → State × Option (Cause × Nat × Nat)
  | 0, _, s => (s, none)
  | fuel + 1, off, s =>
    if im.size ≤ off then (s, none)
    else
      let n := min 256 (im.size - off)
      let s := engReach s k ((ga + off) % 2 ^ 64) n
      match engCheck s k true true ((ga + off) % 2 ^ 64) n with
      | .error (c, va, _) => (s, some (c, va, off))
      | .ok ps => saveChunks k ga im kept fuel (off + 256) (engWriteParts s (tileOf k) ps ((List.range n).map fun i => imageAt im kept (off + i)))
/-- The header is written last. -/
def saveHeader (k ga : Nat) (im : Image) (s : State) : State × Option (Cause × Nat × Nat) :=
  let s := engReach s k ga 256
  match engCheck s k true true ga 256 with
  | .error (c, va, _) => (s, some (c, va, im.size))
  | .ok ps => (engWriteParts s (tileOf k) ps (imageHeader im), none)

/-- The log entry of a save or rest faults, and its context is told (R397, R411). -/
def engineFault (s : State) (k e : Nat) (o : Op) (c : Cause) (va off : Nat) (info : BitVec 32) : State :=
  let s := s.updCore k fun x =>
    { x with ops := x.ops.put e { o with flt := some c, faddr := BitVec.ofNat 64 va, info := info, prog := off } }
  s.report k o.ctx { cause := c, info := info, entry := some e, stamp := o.stamp }
/-- The engine saves: it finishes, or pauses on a fault with its offset held (R411). -/
def saveRun (s : State) (cl k e off id : Nat) (o : Op) : State :=
  let ga := (o.vals.getD 1 0).toNat
  let gb := o.vals.getD 2 0
  let t := saveTarget gb
  match s.images.find? fun im => im.id == id with
  | none => s.updCluster cl fun c => { c with engine := .idle }
  | some im =>
    let r := saveChunks k ga im (keptBytes s cl im.kept) (im.size / 256 + 1) off s
    let r := match r with
      | (s, none) => saveHeader k ga im s
      | r => r
    match r with
    | (s, none) =>
      let s := s.updCluster cl fun c => { c with engine := .idle }
      (s.updCore k fun x => { x with ops := x.ops.del e }).updCore t fun x => { x with saved := true }
    | (s, some (c, va, off)) =>
      let s := s.updCluster cl fun x => { x with engine := .paused t (saveCL gb) (o.vals.getD 1 0) off id }
      if c = .page ∨ c = .prot then engineFault s k e o .savePage va off (BitVec.ofNat 32 off)
      else engineFault s k e o c va off 0

/-- The bytes of an area from an offset on, or the fault: cause, address, table level. -/
def restChunks (k ga size : Nat) : Nat → Nat → State → Except (Cause × Nat × Nat) (List Byte × State)
  | 0, _, s => .ok ([], s)
  | fuel + 1, off, s =>
    if size ≤ off then .ok ([], s)
    else
      let s := engReach s k ((ga + off) % 2 ^ 64) (min 256 (size - off))
      match engCheck s k true false ((ga + off) % 2 ^ 64) (min 256 (size - off)) with
      | .error e => .error e
      | .ok ps =>
        match engReadParts s (tileOf k) ps with
        | (_, true, _) => .error (.poison, (ga + off) % 2 ^ 64, 0)
        | (bs, false, s) =>
          match restChunks k ga size fuel (off + 256) s with
          | .error e => .error e
          | .ok (t, s) => .ok (bs ++ t, s)
/-- The bytes are those of a saved image, in every region of the hardware's own form but that of the contexts, where system software may
have written: what it has written there comes with the resume of the context (R393; DEDUCED, notes/assumptions/18.md). -/
def imageMatches (im : Image) (bs : List Byte) : Bool :=
  decide (bs.length = im.size) &&
    (bs.mapIdx fun i b => (i, b)).all fun e =>
      decide (e.1 < 0x5900) || !internalAt im.cluster.isSome e.1 || e.2 == Config.imageByte im.id e.1

/-- A core takes the state of an image, and its seat in the task: its contexts stay halted (R409, R411). L1, which no image holds, stays
(DEDUCED, notes/assumptions/18.md). -/
def restoreCore (s : State) (t : Nat) (im : Image) : State :=
  let s := s.updCore t fun x =>
    { mapRuns Run.halt im.core with
      l1 := x.l1, irq := x.irq, failed := x.failed, last := x.last, sent := x.sent, recv := x.recv, saved := false }
  let s := match im.core.task with
    | some ticket => s.updRec ticket fun r => { r with cores := r.cores.set (r.seat im.core) t }
    | none => s
  State.rearm ((s.write (tcmBase t) im.tcm).write (istoreBase t) im.istore) (clusterOf t)
/-- The contexts of a core are free, without a task's end: the stall census rearms (R41, R411). -/
def freeContexts (s : State) (t : Nat) : State := (s.updCore t fun x => { x with ctxs := [], saved := false }).rearm (clusterOf t)
/-- The kept ranges come back from the bytes of an image. -/
def restoreKept (s : State) (cl : Nat) : List (Nat × Nat) → List Byte → State
  | [], _ => s
  | r :: t, bs => restoreKept (s.write (scratchBase cl + r.1) (bs.take r.2)) cl t (bs.drop r.2)
/-- Every 32-bit word of a cluster's scratch part is 0xFFFF_FFFF (R410). -/
def fillScratch (s : State) (cl : Nat) : State :=
  let n := (s.cluster cl).ways.s * 0x40000
  let lo := scratchBase cl
  { s.write lo (List.replicate n 0xFF) with poison := s.poison.filter fun x => x * 32 + 32 ≤ lo || lo + n ≤ x * 32 }
/-- A cluster takes the state of an image: its registers, exchange unit and pending gather requests; scratch outside the kept ranges
reads as 0xFFFF_FFFF words, and no translation is held (R409, R410). -/
def restoreCluster (s : State) (cl : Nat) (c : Cluster) (kept : List (Nat × Nat)) (bs : List Byte) : State :=
  let s := (s.rearm cl)
  let s := wayTake (wayJoin s cl c.ways.s) cl c.ways.s
  let s := s.updCluster cl fun x =>
    { x with mweight := c.mweight, vshare := c.vshare, ways := c.ways, part := c.part, domain := c.domain, domainPend := c.domainPend
             phase := c.phase, ptroot := c.ptroot, table := c.table, gathers := c.gathers, tlb := [], tlbOld := x.tlb ++ x.tlbOld }
  (restoreKept (fillScratch s cl) cl kept bs).rearm cl

/-- The engine restores: the target takes the image that the area holds, or on a fault its contexts stay free (R411). An area that no
`save` wrote restores nothing (DEDUCED, notes/assumptions/18.md). -/
def restRun (s : State) (cl k e : Nat) (o : Op) : State :=
  let ga := (o.vals.getD 1 0).toNat
  let gb := o.vals.getD 2 0
  let t := saveTarget gb
  let idle := fun (s : State) => s.updCluster cl fun c => { c with engine := .idle }
  let done := fun (s : State) => idle (s.updCore k fun x => { x with ops := x.ops.del e })
  let stop := fun (s : State) (c : Cause) (va : Nat) (info : BitVec 32) =>
    idle (engineFault (freeContexts s t) k e o c va 0 info)
  match engRead s k true ga 8 with
  | .error (c, va, l) => stop s c va (accessInfo c false l 0)
  | .ok (h, s) =>
    let size := h % 2 ^ 32
    match restChunks k ga size (size / 256 + 1) 0 s with
    | .error (c, va, l) => stop s c va (accessInfo c false l 0)
    | .ok (bs, s) =>
      match s.images.reverse.find? fun im => imageMatches im bs with
      | none =>
        let s := freeContexts s t
        done (if saveCL gb then fillScratch s cl else s)
      | some im =>
        let s := restoreCore s t im
        done (if !saveCL gb then s
          else match im.cluster with
            | some c => restoreCluster s cl c im.kept (bs.drop 0x51000)
            | none => fillScratch s cl)
/-- SAVE_ENGINE_FINISH: the save engine of a cluster finishes its work, or pauses or faults (R351, R411). -/
def execSaveEngineFinish (cl : Nat) (s : State) : Host.Outcome State Fault Refusal :=
  .next (if s.io.frz then s
    else
      match (s.cluster cl).engine with
      | .busy k e off id =>
        match Tab.find (s.core k).ops e with
        | none => s.updCluster cl fun c => { c with engine := .idle }
        | some o =>
          s.ifInTurn (match o.instr with
            | .rest .. => restRun s cl k e o
            | _ => saveRun s cl k e off id o)
      | .idle | .paused .. => s)

/-- A save or rest of a context whose engine works: the context issues nothing (R411). -/
def engineWorks (x : Core) (c : Nat) : Bool :=
  x.ops.any fun e => e.2.ctx == c && e.2.flt.isNone &&
    match e.2.instr with
    | .save .. | .saveRes .. | .rest .. => true
    | _ => false
/-- `eret` replays a log entry of `save` or `rest` (R400): a paused save goes on from the held offset as `save.res`, and a rest starts again,
each with the checks of R411 on its target and, for a rest, on the header. -/
def engineReplay (s : State) (k e : Nat) (o : Op) : State :=
  let ga := o.vals.getD 1 0
  let gb := o.vals.getD 2 0
  let t := saveTarget gb
  let cl := clusterOf t
  let take := fun (off id : Nat) =>
    (s.updCore k fun x => { x with ops := x.ops.put e { o with flt := none, faddr := 0, info := 0 } }).updCluster cl fun c =>
      { c with engine := .busy k e off id }
  let state := engineFault s k e o .saveState 0 o.prog 0
  match o.instr, (s.cluster cl).engine with
  | .rest .., .idle =>
    if !mayRest (s.core t) then state
    else
      match engRead s k true ga.toNat 8 with
      | .error (c, va, l) => engineFault s k e o c va 0 (accessInfo c false l 0)
      | .ok (h, _) =>
        if !h.testBit 63 ∨ (o.vals.getD 0 0).toNat < h % 2 ^ 32 then engineFault s k e o .saveForm 0 0 0 else take 0 0
  | .save .., .paused t' c area off id | .saveRes .., .paused t' c area off id =>
    if liveUnhalted (s.core t) ∨ t' ≠ t ∨ area ≠ ga ∨ c ≠ saveCL gb then state else take off id
  | _, _ => state

/-! ### `tlbinv` (R200, R404) -/

/-- The clusters that a `tlbinv` of a core acts on (R404). -/
def tlbScope (s : State) (k : Nat) (sc : Scope) : List Nat :=
  let all := partClusters s (s.partOf k)
  match sc with
  | .clu => if isGran k then [] else [clusterOf k]
  | .die => all.filter fun c => dieOf (c * 8) == dieOf k
  | _ => all
/-- The clusters of the scope of a `tlbinv` that its messages reach (R356). -/
def tlbReached (s : State) (t : TlbInv) : List Nat := (tlbScope s t.core t.scope).filter fun cl => !unreachable s (tileOf t.core) cl
/-- The cluster that keeps the record of a `tlbinv`. -/
def tlbHome (k : Nat) : Nat := if isGran k then 0 else clusterOf k
/-- `tlbinv` (R57, R200, R404). -/
def execTlbinv (d a : R5) (n : BitVec 7) (sc : Scope) (s : State) : Host.Outcome State Fault Refusal :=
  let lo := (s.srcG d).toNat
  let len := (s.srcG a).toNat
  .next (s.privileged fun s =>
    if len ≠ 0 ∧ !canonical lo then s.trap .page (accessInfo .page false 0 0)
    else
      match releaseTry s s.cur.core s.cur.ctx .dev with
      | (false, s) => s.stall
      | (true, s) =>
        let t : TlbInv :=
          { core := s.cur.core, ctx := s.cur.ctx, stamp := s.now, scope := sc, lo := lo / 65536 * 65536
            hi := (lo + len + 65535) / 65536 * 65536, all := len == 0, sem := n.toNat }
        s.updCluster (tlbHome s.cur.core) fun c => { c with tlbinvs := c.tlbinvs ++ [t] })

/-- A TLB entry lies in the range. -/
def TlbInv.covers (t : TlbInv) (e : TlbEntry) : Bool := t.all || (e.vbase < t.hi && t.lo < e.vbase + e.size)
/-- The pages of the range at a cluster, as physical ranges: those of its TLB, and those whose entries have given way but whose lines or
replicas may still be held (DEDUCED, notes/assumptions/32.md). -/
def TlbInv.pagesAt (t : TlbInv) (c : Cluster) : List (Nat × Nat) :=
  ((c.tlb ++ c.tlbOld).filter t.covers).map fun e => (e.pbase, e.pbase + e.size)
/-- A sector lies in one of some ranges. -/
def inRanges (rs : List (Nat × Nat)) (sector : Nat) : Bool := rs.any fun r => r.1 ≤ sector * 32 && sector * 32 < r.2
/-- The lines of a cluster in some ranges are written back, the bytes of L1 over those of the cluster cache part, and invalidated
(R200). -/
def flushRanges (s : State) (cl : Nat) (rs : List (Nat × Nat)) : State :=
  let s := unkeep s (coresOf cl) fun p => inRanges rs (p.pa / 32)
  let s := (coresOf cl).foldl (fun s k =>
    let s := ((s.core k).l1.filter fun l => inRanges rs l.addr).foldl (fun s l => l1Home s k l) s
    s.updCore k fun x => { x with l1 := x.l1.filter fun l => !inRanges rs l.addr }) s
  let s := ((s.cluster cl).cc.filter fun l => inRanges rs l.addr).foldl (fun s l => sendLine s (cl * 8 + l.cores.headD 0) l) s
  s.updCluster cl fun c => { c with cc := c.cc.filter fun l => !inRanges rs l.addr }
/-- The scope drops replicas: die and device scope do (R140). -/
def dropsReplicas : Scope → Bool
  | .die | .dev => true
  | .ctx | .core | .clu | .dom | .sys | .res7 => false
/-- The entries of the range are dropped at every cluster of the scope (R200). Where a cluster is not reached, the message to it is dropped,
and the context is told TILE_DOWN (R356). -/
def tlbDrop (s : State) (t : TlbInv) : State :=
  (tlbScope s t.core t.scope).foldl (fun s cl =>
    if unreachable s (tileOf t.core) cl then (s.refusedAt (tileOf t.core)).report t.core t.ctx { cause := .tileDown, stamp := t.stamp }
    else
      (s.exchanged (tileOf t.core) cl).updCluster cl fun c =>
        { c with tlb := c.tlb.filter fun e => !t.covers e,
                 tlbOld := if dropsReplicas t.scope then c.tlbOld.filter fun e => !t.covers e
                           else c.tlb.filter t.covers ++ c.tlbOld.filter fun e => !(c.tlb.contains e) }) s
/-- The lines of the covered pages are written back and invalidated at every cluster of the scope, and their replicas dropped (R140,
R200). -/
def tlbFlush (s : State) (t : TlbInv) : State :=
  let s := (tlbReached s t).foldl (fun s cl => flushRanges s cl t.pages) s
  if dropsReplicas t.scope then t.pages.foldl (fun s r => dropReplicas s (fun _ => true) r.1 r.2) s else s
/-- An operation that may have been translated by a dropped entry is not complete yet: one that has its bytes may still ask for them again
(R200). -/
def olderOp (t : TlbInv) (o : Op) : Bool := o.stamp < t.mark && o.stage == .wait && o.flt.isNone && !o.parts.isEmpty
/-- Every access that a dropped entry translated has been performed at the cores of a cluster, or its bytes are in the caches (R200). -/
def tlbQuiet (s : State) (t : TlbInv) (cl : Nat) : Bool :=
  (coresOf cl).all fun k =>
    let x := s.core k
    (x.wb.all fun e => e.bytes.all fun b => decide (t.mark ≤ b.2.2.2)) && !(x.ops.any fun e => olderOp t e.2) &&
      !(x.fetches.any fun e => olderOp t e.2) &&
      x.cq.all fun m => m.copy.late.all fun w => w.dst.all fun p => !(t.pages.any fun r => decide (r.1 ≤ p.pa) && decide (p.pa < r.2))
/-- The writes of a cluster's cores to homes have been performed. -/
def tlbWritten (s : State) (cl : Nat) : Bool := (coresOf cl).all fun k => (s.core k).wbOut == 0
/-- TLBINV_COMPLETE: the oldest `tlbinv` of a cluster drops its entries; once every access that they translated is performed, it writes
back and invalidates the lines of their pages; and once those writes are performed it completes (R200). -/
def execTlbinvComplete (cl : Nat) (s : State) : Host.Outcome State Fault Refusal :=
  .next (if s.io.frz then s
    else
      match (s.cluster cl).tlbinvs with
      | [] => s
      | t :: rest =>
        let scope := tlbReached s t
        let put := fun (s : State) (t : TlbInv) => s.updCluster cl fun c => { c with tlbinvs := t :: rest }
        if t.phase = 0 then
          s.ifInTurn (put (tlbDrop s t)
            { t with phase := 1, mark := s.stamp + 2, pages := (scope.flatMap fun j => t.pagesAt (s.cluster j)).eraseDups })
        else if t.phase = 1 then (if scope.all (tlbQuiet s t) then put (tlbFlush s t) { t with phase := 2 } else s)
        else if !scope.all (tlbWritten s) then s
        else semIncr (s.updCluster cl fun c => { c with tlbinvs := rest }) t.core t.ctx t.sem true t.stamp)

end Sys2Proof.Machine
end

