-- ==== Sys2Proof/Machine/Gleaner.lean ====
section
/-! DEFINITION. The Gleaner (R415 to R432): declaring the region, the loop, footprints and skipping, and the forms that a body
forbids. -/

namespace Sys2Proof.Machine

/-- The bytes that the cover map occupies (R418). -/
def mapBytes (ncell : Nat) : Nat := (ncell + 255) / 256 * 32
/-- Two ranges of addresses share a byte. -/
def rangesMeet (a n b m : Nat) : Bool := a < b + m && b < a + n
/-- A virtual range meets a range of the core's TCM or of its cluster's scratch, by the local alias or the window of R133. -/
def meetsTcm (k va n off len : Nat) : Bool :=
  rangesMeet va n off len || rangesMeet va n (0xFFFFF00000000000 + k * 0x40000 + off) len
/-- The same for a range of scratch. -/
def meetsScratch (k va n off len : Nat) : Bool :=
  rangesMeet va n (0x400000 + off) len ||
    rangesMeet va n (0xFFFFF00000000000 + 0x100000000 + clusterOf k * 0x400000 + off) len

/-- What `glset` declares (R418). -/
def glDecl (g : Gleaner) (c : Nat) (gd ga gb : Word) : Gleaner :=
  { g with own := c, decl := true, base := ga.toNat, ncell := Bits gb 22 0, csz := Bits gb 25 24, map := Bits gb 53 32,
           pbase := Bits gd 16 0, plen := Bits gd 48 32 }
/-- The declaration is inside the limits of R418, and its parts do not overlap. -/
def glFits (k : Nat) (g : Gleaner) (gd gb : Word) : Bool :=
  1 ≤ g.ncell && g.ncell ≤ 4194304 && Bits gb 63 54 == 0 && Bits gb 31 26 == 0 && Bits gb 23 23 == 0 && Bits gd 63 49 == 0 &&
    Bits gd 31 17 == 0 && g.base % g.cell == 0 && g.map % 32 == 0 && g.pbase % 32 == 0 && g.plen % 32 == 0 &&
    g.pbase + g.plen ≤ 0x20000 && !(g.plen != 0 && rangesMeet g.pbase g.plen 0x1F000 0xB00) &&
    !(g.plen != 0 && meetsTcm k g.base (g.ncell * g.cell) g.pbase g.plen) &&
    !meetsScratch k g.base (g.ncell * g.cell) g.map (mapBytes g.ncell)
/-- A byte of the map lies at or beyond the scratch part of the cluster (R149). -/
def mapBeyond (s : State) (k : Nat) (g : Gleaner) : Bool :=
  (s.cluster (clusterOf k)).ways.s * 0x40000 < g.map + mapBytes g.ncell

/-- `glset` (R418). -/
def execGlset (d a b : R5) (s : State) : Host.Outcome State Fault Refusal :=
  let g := s.my.gl
  let c := s.cur.ctx
  let n := glDecl g c (s.srcG d) (s.srcG a) (s.srcG b)
  .next (if g.run ∨ (g.own ≠ 15 ∧ g.own ≠ c) then s.trap .glUndeclared
    else if !glFits s.cur.core n (s.srcG d) (s.srcG b) then s.trap .glUndeclared
    else if !canonical n.base then s.trap .page
    else if mapBeyond s s.cur.core n then s.trap .scratchRange
    else s.updMy fun x => { x with gl := n })

/-- Every map bit of the region is cleared, at the scratch home (R420). -/
def clearMap (s : State) (k : Nat) (g : Gleaner) : State :=
  let a := scratchBase (clusterOf k) + g.map
  let s := s.write a (List.replicate (g.ncell / 8) 0)
  if g.ncell % 8 = 0 then s
  else
    let e := a + g.ncell / 8
    s.write e [memGet s.mem e &&& BitVec.ofNat 8 (256 - 2 ^ (g.ncell % 8))]

/-- `glrun` (R420). A loop that a handler begins is not checked before its `eret` (R430). -/
def execGlrun (a : R5) (len : BitVec 9) (s : State) : Host.Outcome State Fault Refusal :=
  let g := s.my.gl
  let k := s.cur.core
  let n := Bits (s.srcG a) 31 0
  let last := s.cur.pc + BitVec.ofNat 13 len.toNat
  .next (if s.me.ls.act ∨ g.run then s.trap .loopNest
    else if g.own ≠ s.cur.ctx ∨ !g.decl then s.trap .glUndeclared
    else if mapBeyond s k g then s.trap .scratchRange
    else
      let s := clearMap s k g
      let g := { g with skips := 0, supp := 0, start := s.cur.pc + 1, last := last }
      if n = 0 then (s.updMy fun x => { x with gl := g }).goTo (last + 1) false
      else
        (s.updMy fun x =>
          { x with gl := { g with run := true, idx := n - 1, foot := false, cover := [],
                                  suspended := g.suspended || !s.me.handler.isEmpty } }).setG 30 (BitVec.ofNat 64 (n - 1)))

/-- The steps of `glnext` after its checks (R421). -/
def glStep (s : State) : State :=
  let g := s.my.gl
  let put := fun (s : State) (g : Gleaner) => s.updMy fun x => { x with gl := { g with foot := false, cover := [] } }
  if g.idx = 0 then (put s { g with run := false }).goTo (g.last + 1) false
  else ((put s { g with idx := g.idx - 1 }).setG 30 (BitVec.ofNat 64 (g.idx - 1))).goTo g.start false

/-- The context holds a Gleaner whose loop is active (R415, R416). -/
def glMine (s : State) : Bool := s.my.gl.run && s.my.gl.own == s.cur.ctx

/-- `glnext` (R421). -/
def execGlnext (s : State) : Host.Outcome State Fault Refusal :=
  .next (if !glMine s ∨ s.cur.pc ≠ s.my.gl.last then s.trap .repForm
    else if !s.my.gl.foot then s.trap .glUndeclared
    else glStep s)

/-- An earlier store of the context to the region has not entered the write buffer (R423, R427). -/
def glStoresPending (s : State) : Bool :=
  s.my.ops.any fun e => e.2.ctx == s.cur.ctx && e.2.cover.isSome && !(s.my.gl.cells e.2.ea.toNat e.2.size).isEmpty

/-- The map bit of a cell, read at the scratch home (R418). -/
def mapBit (s : State) (k : Nat) (g : Gleaner) (c : Nat) : Bool :=
  (memGet s.mem (scratchBase (clusterOf k) + g.map + c / 8)).getLsbD (c % 8)

/-- A footprint of cell indices is declared (R423). -/
def State.foot (s : State) (cells : List Nat) : State :=
  let g := s.my.gl
  if !glMine s then s.trap .repForm
  else if g.foot then s.trap .glUndeclared
  else if cells.any fun c => g.ncell ≤ c then s.trap .glUndeclared
  else if glStoresPending s then s.stall
  else
    let cov := cells.eraseDups.map fun c => (c, mapBit s s.cur.core g c)
    let s := (s.updMy fun x => { x with gl := { g with foot := true, cover := cov } }).updCur fun x => { x with footed := true }
    if cov.all fun f => f.2 then
      glStep (s.updMy fun x => { x with gl := { x.gl with skips := capped (2 ^ 32 - 1) (g.skips + 1) } })
    else s

/-- `glfoot`, register form: the cells named by gA and the registers that follow it (R423). -/
def execGlfoot (a : R5) (n : BitVec 4) (s : State) : Host.Outcome State Fault Refusal :=
  .next (s.foot ((List.range (n.toNat + 1)).map fun j => (s.atIssue.readG (a.toNat + j)).toNat))
/-- `glfoot.v`: the cells named by lanes of vA (R423). -/
def execGlfootV (a : R5) (n : BitVec 4) (s : State) : Host.Outcome State Fault Refusal :=
  .next (s.foot ((List.range (n.toNat + 1)).map fun j => lane (s.me.readV a.toNat) 32 j))

/-- `glend` (R419). -/
def execGlend (d : R5) (s : State) : Host.Outcome State Fault Refusal :=
  let g := s.my.gl
  .next (if g.own = s.cur.ctx then (s.updMy freeGleaner).setG d (BitVec.ofNat 64 (g.skips + g.supp * 2 ^ 32)) else s.setG d 0)

/-- The forms that a Gleaner body forbids (R422). -/
def glForbids : Instr → Bool
  | .call .. | .callr .. | .jr .. | .ret | .loop .. | .rep .. | .eret | .glset .. | .glend .. | .start .. | .join .. | .hend
  | .tend .. | .wfi | .spawn .. | .gang .. | .sstep | .save .. | .saveRes .. | .rest .. | .curf .. | .tlbinv .. => true
  | _ => false

/-- A bundle of a Gleaner body may not issue: a forbidden form, a `glnext` before END, or another instruction at END
(R421, R422). -/
def glBars (s : State) (i : Instr) : Bool :=
  let g := s.my.gl
  glActive s &&
    (glForbids i || (match i with
      | .glnext => s.cur.pc != g.last
      | _ => s.cur.pc == g.last))

end Sys2Proof.Machine
end

