-- ==== Sys2Proof/Machine/Traps.lean ====
section
/-! DEFINITION. The delivery of reports and interrupts at bundle boundaries (R390, R391, R395). -/

namespace Sys2Proof.Machine

/-- The context is at a bundle boundary where it can take a trap: ready, stalled, or blocked otherwise than in `frd`
(R391). -/
def Ctx.atBoundary (x : Ctx) : Bool :=
  match x.run with
  | .ready | .stalled => true
  | .blocked (.frd _) => false
  | .blocked _ => true
  | .free | .halted _ | .delegated => false

/-- A trap meets a context whose `sacq` has taken its unit: the `sacq` completes, so that it is not performed again (R22, R314;
DEDUCED, notes/assumptions/11.md). -/
def leaveAcq (s : State) (k c : Nat) : State :=
  match (s.ctx k c).run with
  | .blocked (.acq sc) => wakeOne s k c (.acq sc)
  | _ => s
/-- A context takes its oldest report as a trap (R390, R391): its program counter is the resume address, since a blocked
context stands at its waiting instruction. -/
def takeReport (s : State) (k c : Nat) : State :=
  let x := s.ctx k c
  if s.coreStill k || !x.atBoundary then s
  else
    match x.nextReport with
    | none => s
    | some r =>
      let s := (leaveAcq s k c).updCtx k c fun x => { x with reports := x.reports.erase r, run := .ready, since := none }
      s.takeTrap k c { cause := r.cause, info := r.info, after := true, logix := r.entry.getD 0 }

/-- Context 0 of a core may take an interrupt (R395). After `tend` it takes none, also in a handler of its steps and before the `tend` that
`eret` issues again (R120). -/
def mayInterrupt (s : State) (k : Nat) : Bool :=
  let x := s.ctx k 0
  let v := (s.core k).trapvec
  !s.coreStill k && !(s.core k).irq.isEmpty && vecIE v && vecEN v && !x.cause.inh && x.atBoundary && x.tendStep == 0
/-- The lowest number of a list. -/
def lowest (l : List Nat) : Nat := l.foldl min (l.headD 0)
/-- Context 0 takes the lowest pending interrupt (R395). A `wfi` that it waits in completes first (R122). -/
def takeInterrupt (s : State) (k : Nat) : State :=
  let s := wake s k
  if mayInterrupt s k then
    let n := lowest (s.core k).irq
    let s := s.updCore k fun x => { x with irq := x.irq.filter fun j => j != n }
    let s := (leaveAcq s k 0).updCtx k 0 fun x => { x with run := .ready, since := none }
    s.takeTrap k 0 { cause := .interrupt, info := BitVec.ofNat 32 n }
  else s

/-- TRAP_ENTRY: a context takes the oldest fault reported to it (R390, R391). -/
def execTrapEntry (k c : Nat) (s : State) : Host.Outcome State Fault Refusal := .next (takeReport s k c)
/-- INTERRUPT (R395). -/
def execInterrupt (k : Nat) (s : State) : Host.Outcome State Fault Refusal := .next (takeInterrupt s k)

end Sys2Proof.Machine
end

