-- ==== Sys2Proof/Machine/Eret.lean ====
section
/-! DEFINITION. The return from a trap: replay and discard of the faulted entries of the operand log (R399, R400). -/

namespace Sys2Proof.Machine

/-- The engine queue of a log entry from 64 on (R397). -/
def Core.logQueue (x : Core) (e : Nat) : List Cmd := [x.vq, x.mq, x.cq, x.xq].getD ((e - 64) / 16) []
/-- The faulted command of a context that a log entry from 64 on holds (R397). -/
def Core.logCmd (x : Core) (c e : Nat) : Option Cmd :=
  (x.logQueue e).find? fun m => m.idx == (e - 64) % 16 && m.ctx == c && m.flt.isSome
/-- The operand-log entries of a context with FLT 1, with their stamps (R397). -/
def markedBy (x : Core) (c : Nat) : List (Nat × Nat) :=
  ((x.ops.filter fun e => e.2.ctx == c && e.2.flt.isSome).map fun e => (e.2.stamp, e.1)) ++
    (List.range 64).filterMap fun j => (x.logCmd c (64 + j)).map fun m => (m.stamp, 64 + j)
/-- The same entries in program order (R399). -/
def markedEntries (x : Core) (c : Nat) : List Nat := ((markedBy x c).mergeSort fun a b => a.1 ≤ b.1).map fun e => e.2

/-- A faulted entry of entries 0 to 63 is performed again (R400). -/
def replayOp (s : State) (k e : Nat) (o : Op) : State :=
  match o.instr with
  | .save .. | .saveRes .. | .rest .. => engineReplay s k e o
  | _ => opAgain (s.updCore k fun x => { x with ops := x.ops.put e { o with flt := none, faddr := 0, info := 0, replayed := true } }) k e
/-- A faulted command of a queue is performed again, or ended where `eret` ends it or discards it (R262, R310, R339, R400). -/
def replayCmd (s : State) (k e : Nat) (m : Cmd) (discard : Bool) : State :=
  match (e - 64) / 16 with
  | 0 => if discard then vecDiscard s k m else vecReplay s k m
  | 1 => if discard || m.mill.aborted then millDiscard s k m else millReplay s k m
  | 2 => if discard || !copyResumes m then copyDiscard s k m else copyReplay s k m
  | _ => if discard || !collResumes m then collDiscard s k m else collReplay s k m
/-- A marked entry of a context is replayed at once or, for the skipped one, discarded (R399, R400). -/
def replayEntry (k c : Nat) (skip : Option Nat) (s : State) (e : Nat) : State :=
  if e < 64 then
    match Tab.find (s.core k).ops e with
    | some o => if skip = some e then s.updCore k fun x => { x with ops := x.ops.del e } else replayOp s k e o
    | none => s
  else
    match (s.core k).logCmd c e with
    | some m => replayCmd s k e m (skip == some e)
    | none => s

/-- The context registers that `eret` restores (R113, R399). -/
def Ctx.leaveHandler (x : Ctx) : Ctx :=
  { x with ls := { x.ls with act := x.ls.held, held := false }, sup := x.cause.ppriv, cause := { x.cause with inh := false }
           pc := x.trapPc, handler := x.handler.tail }
/-- The entry of a take that a context still waits for (R172). -/
def frdEntry (x : Core) (c : Nat) : Option Nat :=
  (x.ops.find? fun e => e.2.ctx == c && e.2.flt.isNone && (match e.2.instr with
    | .frd .. => true
    | _ => false)).map fun e => e.1
/-- A context with an `frd` that is not performed is blocked in it (R24, R172). -/
def blockFrd (s : State) (k c : Nat) : State :=
  match frdEntry (s.core k) c with
  | some e => s.updCtx k c fun x => { x with run := .blocked (.frd e) }
  | none => s

/-- The return from a trap of a context. The queues that its faults held go on, and those of entries that fault again are held again; the
trap of such an entry is taken at once (R399, R430). -/
def returnFromTrap (s : State) (k c : Nat) : State :=
  let t := (s.ctx k c).cause
  let skip := if t.skip then some t.logix else none
  let marked := markedEntries (s.core k) c
  let s := s.updCore k fun x =>
    { x with gl := if x.gl.own = c then { x.gl with suspended := false } else x.gl, holds := x.holds.filter fun h => h.2 != c }
  let s := s.updCtx k c fun x =>
    { x with reports := x.reports.filter fun r => !(r.entry.any fun e => marked.contains e) }
  let n := (s.ctx k c).reports.length
  let s := marked.foldl (replayEntry k c skip) s
  let s := s.updCtx k c Ctx.leaveHandler
  if n < (s.ctx k c).reports.length then takeReport s k c else blockFrd s k c

/-- `eret` (R57, R399). It waits while the messages of what it performs again may not pass yet (R351). -/
def execEret (s : State) : Host.Outcome State Fault Refusal :=
  .next (s.privileged fun s =>
    let t := returnFromTrap s s.cur.core s.cur.ctx
    if s.inTurn t then t.updCur fun x => { x with out := .trap } else s.stall)

end Sys2Proof.Machine
end

