-- ==== Sys2Proof/Machine/Integer.lean ====
section
/-! DEFINITION. The integer instructions of the A slot (R96 to R103). -/

namespace Sys2Proof.Machine

/-- The two-source integer operations (R97, R98). -/
inductive Alu where
  | add | sub | and | or | xor | andn | shl | shr | sra | mul | mulh | div | rem | min | max | seq | sne | slt | sle | rol | ror
  deriving DecidableEq, Repr

/-- A W-bit number rotated left by `k`, k below W. -/
def rotl (w x k : Nat) : Nat := x * 2 ^ k % 2 ^ w + x / 2 ^ (w - k)

/-- A quotient truncated toward zero, with the decided cases (R98). -/
def divValue (w : Nat) (signed : Bool) (a b : Int) : Int :=
  if b = 0 then (2 ^ w : Nat) - 1
  else if signed ∧ a = -(2 ^ (w - 1) : Nat) ∧ b = -1 then (2 ^ (w - 1) : Nat)
  else Int.tdiv a b
/-- The remainder, of the dividend's sign, with the decided cases (R98). -/
def remValue (w : Nat) (signed : Bool) (a b : Int) (raw : Nat) : Int :=
  if b = 0 then raw
  else if signed ∧ a = -(2 ^ (w - 1) : Nat) ∧ b = -1 then 0
  else Int.tmod a b

/-- The result of a two-source operation before Ext, or of a comparison (R97, R98). -/
def aluExact (op : Alu) (t : Ty) (x y : Word) : Int :=
  let w := t.w
  let a := opS t x
  let b := opS t y
  let va := opSV t x
  let vb := opSV t y
  let k := y.toNat % w
  match op with
  | .add => a + b
  | .sub => (a : Int) - b
  | .and => (a &&& b : Nat)
  | .or => (a ||| b : Nat)
  | .xor => (a ^^^ b : Nat)
  | .andn => (a &&& (b ^^^ (2 ^ w - 1)) : Nat)
  | .shl => (a * 2 ^ k : Nat)
  | .shr => (a / 2 ^ k : Nat)
  | .sra => toSigned w a / (2 ^ k : Nat)
  | .mul => va * vb
  | .mulh => va * vb / (2 ^ w : Nat)
  | .div => divValue w t.signed va vb
  | .rem => remValue w t.signed va vb a
  | .min => min va vb
  | .max => max va vb
  | .rol => (rotl w a k : Nat)
  | .ror => (rotl w a ((w - k) % w) : Nat)
  | .seq => if a = b then 1 else 0
  | .sne => if a = b then 0 else 1
  | .slt => if va < vb then 1 else 0
  | .sle => if va ≤ vb then 1 else 0

/-- The result of a two-source operation: comparisons write 0 or 1 as a 64-bit value, the others are extended (R97). -/
def alu (op : Alu) (t : Ty) (x y : Word) : Word :=
  match op with
  | .seq | .sne | .slt | .sle => BitVec.ofInt 64 (aluExact op t x y)
  | .add | .sub | .and | .or | .xor | .andn | .shl | .shr | .sra | .mul | .mulh | .div | .rem | .min | .max | .rol | .ror =>
    opExt t (aluExact op t x y)

/-- The number of 1 bits of a number below 2^w. -/
def popCount : Nat → Nat → Nat
  | 0, _ => 0
  | w + 1, x => x % 2 + popCount w (x / 2)
/-- The number of 0 bits above the highest 1 bit of a number below 2^w; w for zero. -/
def leadZeros (w x : Nat) : Nat := if x = 0 then w else w - 1 - Nat.log2 x
/-- The number of 0 bits below the lowest 1 bit of a number below 2^w; w for zero. -/
def trailZeros : Nat → Nat → Nat
  | 0, _ => 0
  | w + 1, x => if x % 2 = 1 then 0 else 1 + trailZeros w (x / 2)
/-- The bytes of a number of `n` bytes in reverse order. -/
def byteSwap (n x : Nat) : Nat := ofBytes (toBytes n x).reverse

/-- The one-source operations (R99). -/
inductive Alu1 where
  | popc | clz | ctz | bswap | abs
  deriving DecidableEq, Repr

/-- The result of a one-source operation (R99). -/
def alu1 (op : Alu1) (t : Ty) (x : Word) : Word :=
  match op with
  | .popc => BitVec.ofNat 64 (popCount t.w (opS t x))
  | .clz => BitVec.ofNat 64 (leadZeros t.w (opS t x))
  | .ctz => BitVec.ofNat 64 (trailZeros t.w (opS t x))
  | .bswap => opExt t (byteSwap (t.w / 8) (opS t x) : Nat)
  | .abs => opExt t ((opSV t x).natAbs : Nat)

/-- The low bits of a register, extended by the type (R100). -/
def extValue (t : Ty) (x : Word) : Word := opExt t (opS t x)
/-- Bits pos+L−1:pos of a register (R101). -/
def bitExtract (x : Word) (pos len : Nat) : Word := BitVec.ofNat 64 (x.toNat / 2 ^ pos % 2 ^ len)
/-- A register with bits pos+L−1:pos replaced by the low L bits of another (R101). -/
def bitInsert (d x : Word) (pos len : Nat) : Word :=
  BitVec.ofNat 64 (d.toNat % 2 ^ pos + x.toNat % 2 ^ len * 2 ^ pos + d.toNat / 2 ^ (pos + len) * 2 ^ (pos + len))

/-- The immediate operations (R102). -/
inductive AluI where
  | lui | addi | andi | ori | xori | muli | slti | sltin | seqi
  deriving DecidableEq, Repr

/-- The result of an immediate operation on 64 bits (R102). -/
def aluI (op : AluI) (x : Word) (imm : BitVec 15) : Word :=
  match op with
  | .lui => x <<< 15 + zx imm
  | .addi => x + sx imm
  | .andi => x &&& zx imm
  | .ori => x ||| zx imm
  | .xori => x ^^^ zx imm
  | .muli => x * sx imm
  | .slti => if x.toInt < (sx imm).toInt then 1 else 0
  | .sltin => if x.toNat < (sx imm).toNat then 1 else 0
  | .seqi => if x = sx imm then 1 else 0

/-- The immediate shifts (R102). -/
inductive AluS where
  | shli | shri | srai | rori
  deriving DecidableEq, Repr

/-- The result of an immediate shift on 64 bits (R102). -/
def aluS (op : AluS) (x : Word) (k : Nat) : Word :=
  match op with
  | .shli => x <<< k
  | .shri => x >>> k
  | .srai => x.sshiftRight k
  | .rori => x.rotateRight k

/-- The A-slot `nop` (R44). -/
def execNopA (s : State) : Host.Outcome State Fault Refusal := .next s

/-- `add` (R97). -/
def execAdd (d a b : R5) (t : Ty) (s : State) : Host.Outcome State Fault Refusal :=
  .next (s.setG d (alu .add t (s.srcG a) (s.srcG b)))
/-- `sub` (R97). -/
def execSub (d a b : R5) (t : Ty) (s : State) : Host.Outcome State Fault Refusal :=
  .next (s.setG d (alu .sub t (s.srcG a) (s.srcG b)))
/-- `and` (R97). -/
def execAnd (d a b : R5) (t : Ty) (s : State) : Host.Outcome State Fault Refusal :=
  .next (s.setG d (alu .and t (s.srcG a) (s.srcG b)))
/-- `or` (R97). -/
def execOr (d a b : R5) (t : Ty) (s : State) : Host.Outcome State Fault Refusal :=
  .next (s.setG d (alu .or t (s.srcG a) (s.srcG b)))
/-- `xor` (R97). -/
def execXor (d a b : R5) (t : Ty) (s : State) : Host.Outcome State Fault Refusal :=
  .next (s.setG d (alu .xor t (s.srcG a) (s.srcG b)))
/-- `andn` (R97). -/
def execAndn (d a b : R5) (t : Ty) (s : State) : Host.Outcome State Fault Refusal :=
  .next (s.setG d (alu .andn t (s.srcG a) (s.srcG b)))
/-- `shl` (R97). -/
def execShl (d a b : R5) (t : Ty) (s : State) : Host.Outcome State Fault Refusal :=
  .next (s.setG d (alu .shl t (s.srcG a) (s.srcG b)))
/-- `shr` (R97). -/
def execShr (d a b : R5) (t : Ty) (s : State) : Host.Outcome State Fault Refusal :=
  .next (s.setG d (alu .shr t (s.srcG a) (s.srcG b)))
/-- `sra` (R97). -/
def execSra (d a b : R5) (t : Ty) (s : State) : Host.Outcome State Fault Refusal :=
  .next (s.setG d (alu .sra t (s.srcG a) (s.srcG b)))
/-- `mul` (R97). -/
def execMul (d a b : R5) (t : Ty) (s : State) : Host.Outcome State Fault Refusal :=
  .next (s.setG d (alu .mul t (s.srcG a) (s.srcG b)))
/-- `mulh` (R97). -/
def execMulh (d a b : R5) (t : Ty) (s : State) : Host.Outcome State Fault Refusal :=
  .next (s.setG d (alu .mulh t (s.srcG a) (s.srcG b)))
/-- `div` (R98). -/
def execDiv (d a b : R5) (t : Ty) (s : State) : Host.Outcome State Fault Refusal :=
  .next (s.setG d (alu .div t (s.srcG a) (s.srcG b)))
/-- `rem` (R98). -/
def execRem (d a b : R5) (t : Ty) (s : State) : Host.Outcome State Fault Refusal :=
  .next (s.setG d (alu .rem t (s.srcG a) (s.srcG b)))
/-- `min` (R97). -/
def execMin (d a b : R5) (t : Ty) (s : State) : Host.Outcome State Fault Refusal :=
  .next (s.setG d (alu .min t (s.srcG a) (s.srcG b)))
/-- `max` (R97). -/
def execMax (d a b : R5) (t : Ty) (s : State) : Host.Outcome State Fault Refusal :=
  .next (s.setG d (alu .max t (s.srcG a) (s.srcG b)))
/-- `seq` (R97). -/
def execSeq (d a b : R5) (t : Ty) (s : State) : Host.Outcome State Fault Refusal :=
  .next (s.setG d (alu .seq t (s.srcG a) (s.srcG b)))
/-- `sne` (R97). -/
def execSne (d a b : R5) (t : Ty) (s : State) : Host.Outcome State Fault Refusal :=
  .next (s.setG d (alu .sne t (s.srcG a) (s.srcG b)))
/-- `slt` (R97). -/
def execSlt (d a b : R5) (t : Ty) (s : State) : Host.Outcome State Fault Refusal :=
  .next (s.setG d (alu .slt t (s.srcG a) (s.srcG b)))
/-- `sle` (R97). -/
def execSle (d a b : R5) (t : Ty) (s : State) : Host.Outcome State Fault Refusal :=
  .next (s.setG d (alu .sle t (s.srcG a) (s.srcG b)))
/-- `rol` (R97). -/
def execRol (d a b : R5) (t : Ty) (s : State) : Host.Outcome State Fault Refusal :=
  .next (s.setG d (alu .rol t (s.srcG a) (s.srcG b)))
/-- `ror` (R97). -/
def execRor (d a b : R5) (t : Ty) (s : State) : Host.Outcome State Fault Refusal :=
  .next (s.setG d (alu .ror t (s.srcG a) (s.srcG b)))
/-- `popc` (R99). -/
def execPopc (d a : R5) (t : Ty) (s : State) : Host.Outcome State Fault Refusal :=
  .next (s.setG d (alu1 .popc t (s.srcG a)))
/-- `clz` (R99). -/
def execClz (d a : R5) (t : Ty) (s : State) : Host.Outcome State Fault Refusal :=
  .next (s.setG d (alu1 .clz t (s.srcG a)))
/-- `ctz` (R99). -/
def execCtz (d a : R5) (t : Ty) (s : State) : Host.Outcome State Fault Refusal :=
  .next (s.setG d (alu1 .ctz t (s.srcG a)))
/-- `bswap` (R99). -/
def execBswap (d a : R5) (t : Ty) (s : State) : Host.Outcome State Fault Refusal :=
  .next (s.setG d (alu1 .bswap t (s.srcG a)))
/-- `abs` (R99). -/
def execAbs (d a : R5) (t : Ty) (s : State) : Host.Outcome State Fault Refusal :=
  .next (s.setG d (alu1 .abs t (s.srcG a)))
/-- `ext` (R100). -/
def execExt (d a : R5) (t : Ty) (s : State) : Host.Outcome State Fault Refusal := .next (s.setG d (extValue t (s.srcG a)))
/-- `sel` (R100). -/
def execSel (d a b c : R5) (s : State) : Host.Outcome State Fault Refusal :=
  .next (s.setG d (if s.srcG a = 0 then s.srcG c else s.srcG b))
/-- `bext` (R101). -/
def execBext (d a : R5) (pos len : BitVec 6) (s : State) : Host.Outcome State Fault Refusal :=
  .next (s.setG d (bitExtract (s.srcG a) pos.toNat (fieldLen len)))
/-- `bins` (R101). -/
def execBins (d a : R5) (pos len : BitVec 6) (s : State) : Host.Outcome State Fault Refusal :=
  .next (s.setG d (bitInsert (s.srcG d) (s.srcG a) pos.toNat (fieldLen len)))
/-- `movi` (R102). -/
def execMovi (d : R5) (imm : BitVec 15) (s : State) : Host.Outcome State Fault Refusal := .next (s.setG d (sx imm))
/-- `lui` (R102). -/
def execLui (d a : R5) (imm : BitVec 15) (s : State) : Host.Outcome State Fault Refusal :=
  .next (s.setG d (aluI .lui (s.srcG a) imm))
/-- `addi` (R102). -/
def execAddi (d a : R5) (imm : BitVec 15) (s : State) : Host.Outcome State Fault Refusal :=
  .next (s.setG d (aluI .addi (s.srcG a) imm))
/-- `andi` (R102). -/
def execAndi (d a : R5) (imm : BitVec 15) (s : State) : Host.Outcome State Fault Refusal :=
  .next (s.setG d (aluI .andi (s.srcG a) imm))
/-- `ori` (R102). -/
def execOri (d a : R5) (imm : BitVec 15) (s : State) : Host.Outcome State Fault Refusal :=
  .next (s.setG d (aluI .ori (s.srcG a) imm))
/-- `xori` (R102). -/
def execXori (d a : R5) (imm : BitVec 15) (s : State) : Host.Outcome State Fault Refusal :=
  .next (s.setG d (aluI .xori (s.srcG a) imm))
/-- `muli` (R102). -/
def execMuli (d a : R5) (imm : BitVec 15) (s : State) : Host.Outcome State Fault Refusal :=
  .next (s.setG d (aluI .muli (s.srcG a) imm))
/-- `slti` (R102). -/
def execSlti (d a : R5) (imm : BitVec 15) (s : State) : Host.Outcome State Fault Refusal :=
  .next (s.setG d (aluI .slti (s.srcG a) imm))
/-- `sltin` (R102). -/
def execSltin (d a : R5) (imm : BitVec 15) (s : State) : Host.Outcome State Fault Refusal :=
  .next (s.setG d (aluI .sltin (s.srcG a) imm))
/-- `seqi` (R102). -/
def execSeqi (d a : R5) (imm : BitVec 15) (s : State) : Host.Outcome State Fault Refusal :=
  .next (s.setG d (aluI .seqi (s.srcG a) imm))
/-- `shli` (R102). -/
def execShli (d a : R5) (sh : BitVec 6) (s : State) : Host.Outcome State Fault Refusal :=
  .next (s.setG d (aluS .shli (s.srcG a) sh.toNat))
/-- `shri` (R102). -/
def execShri (d a : R5) (sh : BitVec 6) (s : State) : Host.Outcome State Fault Refusal :=
  .next (s.setG d (aluS .shri (s.srcG a) sh.toNat))
/-- `srai` (R102). -/
def execSrai (d a : R5) (sh : BitVec 6) (s : State) : Host.Outcome State Fault Refusal :=
  .next (s.setG d (aluS .srai (s.srcG a) sh.toNat))
/-- `rori` (R102). -/
def execRori (d a : R5) (sh : BitVec 6) (s : State) : Host.Outcome State Fault Refusal :=
  .next (s.setG d (aluS .rori (s.srcG a) sh.toNat))

end Sys2Proof.Machine
end

