-- ==== Sys2Proof/Machine/Outside.lean ====
section
/-! DEFINITION. The host, peers, errors, reset, attestation, power, sensors, debug and the test access port (R413, R414, R433 to
R449). -/

namespace Sys2Proof.Machine

/-! ### Errors (R379, R413, R414) -/

/-- A core fails: its task is restarted or ends with CORE_FAIL, and the core issues nothing until a spare takes its number
(R379, R413, R414). -/
def failCore (s : State) (k : Nat) : State :=
  let s := match (s.core k).task with
    | some t => s.hardError t .coreFail
    | none => s
  (s.stopCores [k]).updCore k fun x => { x with failed := true }
/-- The lines of a sector hold an uncorrectable error. -/
def badLine (ls : List Line) (sector : Nat) : List Line := ls.map fun l => if l.addr = sector then { l with bad := true } else l
/-- UNCORRECTABLE_ERROR: a sector of memory, or a line of L1 or of the cluster cache part, holds an uncorrectable error, which its next
reader meets; one in a core's TCM or instruction store, or in its registers, fails the core (R413). Nothing meets one while the dies are
frozen (R448). -/
def execUncorrectableError (site : ErrSite) (s : State) : Host.Outcome State Fault Refusal :=
  .next (if s.io.frz then s else match site with
    | .core k => if k < 3200 then failCore s k else s
    | .l1 k a => if k < 3200 then s.updCore k fun x => { x with l1 := badLine x.l1 (a / 32) } else s
    | .cache cl a => if cl < 384 then s.updCluster cl fun c => { c with cc := badLine c.cc (a / 32) } else s
    | .sector a =>
      let t := { s with poison := if s.poison.contains (a / 32) then s.poison else s.poison ++ [a / 32] }
      match homeAt a with
      | .tcm k _ | .istore k _ => failCore t k
      | .device | .scratch .. => t
      | .host | .peer .. | .regs .. | .nowhere => s)
/-- LLC_SECTOR_RETIRE: a sector is retired, and its frame is excluded from allocation; a frame of a set that is then too full leaves
the slice (R414; DESIGN CHOICE, notes/assumptions/9.md). -/
def execLlcSectorRetire (gran set frame sector : Nat) (s : State) : Host.Outcome State Fault Refusal :=
  .next (if s.io.frz ∨ 128 ≤ gran ∨ 128 ≤ set ∨ 12 ≤ frame ∨ 32 ≤ sector then s
    else
      s.updGranary gran fun g =>
        let g := { g with retired := capped 65535 (g.retired + 1),
                          gone := if g.gone.contains (set, frame) then g.gone else g.gone ++ [(set, frame)] }
        let fs := frameSet g set
        if fs.length ≤ setSize g set then g
        else
          match (fs.filter fun f => !f.pin).getLast? with
          | some v => { g with frames := g.frames.erase v }
          | none =>
            match fs.getLast? with
            | some v => { g with frames := g.frames.erase v }
            | none => g)

/-! ### Host accesses (R435) -/

/-- What the host reads of its access. -/
def hostAnswer (s : State) (bar : Nat) (bs : List Byte) : State := { s with io := { s.io with hostReads := (bar, bs) :: s.io.hostReads } }
/-- The physical address that a host access names: BAR 2 the on-chip windows, BAR 4 device memory. -/
def barAddr (bar offset : Nat) : Nat := if bar = 2 then onChip + offset else devBase + offset
/-- The pieces of an access at physical addresses. -/
def physParts (pa n : Nat) : List Part := (pieces pa n).map fun q => { va := q.1, pa := q.1, off := q.2.1, n := q.2.2 }
/-- A piece of a host access has a home that serves it: not a hole, not scratch beyond the scratch part, and no write to a shadow
stack (R106, R133, R149). -/
def hostServes (s : State) (write : Bool) (p : Part) : Bool :=
  (match homeAt p.pa with
    | .nowhere => false
    | .tcm _ off => !(write && inShadow off)
    | _ => true) && (homeBars s 512 write p.pa).isNone
/-- A host access to BAR 2 or BAR 4 is performed at the home with supervisor rights (R183, R435); after its `n` bytes a read returns `ones`
bytes of all ones. A read that no home serves, or that meets an uncorrectable error, returns no data; a write of it changes nothing (DEDUCED,
notes/assumptions/33.md). -/
def hostAt (s : State) (bar pa n : Nat) (write : Bool) (data ones : Nat) : State :=
  let ps := physParts pa n
  if !ps.all (hostServes s write) then (if write then s else hostAnswer s bar [])
  else if write then engWriteParts s 512 ps (toBytes n data) true
  else
    match engReadParts s 512 ps with
    | (bs, false, s) => hostAnswer s bar (bs ++ List.replicate ones 0xFF)
    | (_, true, s) => hostAnswer s bar []
/-- An unsupported request of the host completes as UR: a read without data, and a write changes nothing (R434). -/
def hostRejects (s : State) (bar : Nat) (write : Bool) : State := if write then s else hostAnswer s bar []
/-- The size of a BAR (R435). -/
def barSize (bar : Nat) : Nat := if bar = 0 then 0x10000 else if bar = 2 then 2 ^ 34 else if bar = 4 then 2 ^ 39 else 0
/-- HOST_BAR_ACCESS (R434, R435, R442, R448): BAR 0 answers always, the others once the device is ready and while it is not frozen. Of an
access to BAR 4 only the bytes below 384 GiB lie in device memory. -/
def execHostBarAccess (bar offset size : Nat) (write : Bool) (data : Nat) (s : State) : Host.Outcome State Fault Refusal :=
  .next (if bar ≠ 0 ∧ (s.io.frz || !s.io.ready) then s
    else if size = 0 ∨ 512 < size ∨ barSize bar < offset + size then hostRejects s bar write
    else if bar = 0 then
      if write then regWriteBytes s 512 ((toBytes size data).mapIdx fun i b => (offset + i, b)) true
      else
        let (bs, s) := regReadBytes s 512 offset size
        hostAnswer s 0 bs
    else
      let n := if bar = 4 then min size (384 * 2 ^ 30 - offset) else size
      hostAt s bar (barAddr bar offset) n write data (size - n))
/-- The number of a host AtomicOp in the order of R168. -/
def hostOp : HostAtomic → Nat
  | .fetchAdd => 0 | .swap => 6 | .cas => 7
/-- An atomic of `w` bits is performed on device memory for the host or for a peer: the old bytes, or none where the home is not reached or
the memory holds an uncorrectable error (R168, R194, R356). -/
def deviceAtomic (s : State) (pa w op : Nat) (signed : Bool) (operand compare : Nat) : List Byte × State :=
  if (homeBars s 512 true pa).isSome || s.poison.contains (pa / 32) then ([], s)
  else
    let s := llcTouch s pa .modify true
    let old := s.readN pa (w / 8)
    (toBytes (w / 8) old,
      match atomicNew op w signed old operand compare with
      | some n => s.writeN pa (w / 8) n
      | none => s)
/-- HOST_ATOMICOP: an AtomicOp of the host on BAR 4 (R434, R435). An unsupported one completes as UR, with no data. -/
def execHostAtomicop (op : HostAtomic) (offset size operand compare : Nat) (s : State) : Host.Outcome State Fault Refusal :=
  .next (if s.io.frz || !s.io.ready then s
    else if (size ≠ 4 ∧ size ≠ 8) ∨ offset % size ≠ 0 ∨ 384 * 2 ^ 30 < offset + size then hostAnswer s 4 []
    else
      let (bs, s) := deviceAtomic s (devBase + offset) (8 * size) (hostOp op) true operand compare
      hostAnswer s 4 bs)

/-! ### Requests to the host and to peers (R169, R436, R441) -/

/-- The bytes that a completion of an access carries: for a future the whole cell. -/
def answerBytes (a : Access) : Nat :=
  match a.kind with
  | .read | .readLine => a.n
  | .write => 0
  | .atomic _ w _ _ _ => w / 8
  | .frd | .fwr .. => 16
/-- A completion arrives: what the host or peer held is what its memory holds here, and the access is performed on it
(DEDUCED, notes/assumptions/42.md). -/
def completeOuter (s : State) (o : Outer) (data : List Byte) : State := performMem (s.write o.access.pa data) o.back o.access
/-- PCIE_COMPLETION: a completion of a request to host memory; one that is not successful reports TILE_DOWN, and ATOM_OP for an
atomic that the host rejects (R169, R436). -/
def execPcieCompletion (tag : Nat) (ok : Bool) (data : List Byte) (s : State) : Host.Outcome State Fault Refusal :=
  .next (if s.io.frz then s
    else
      match s.io.pcie.find? fun o => o.tag == tag with
      | none => s
      | some o =>
        let t := { s with io := { s.io with pcie := s.io.pcie.filter fun x => x.tag != tag } }
        if !ok then
          match o.access.kind with
          | .atomic .. => failAccess t o.back o.access .atomOp 0
          | .read | .readLine | .write | .frd | .fwr .. => failAccess t o.back o.access .tileDown 0
        else if data.length = answerBytes o.access then completeOuter t o data
        else s)
/-- PCIE_COMPLETION_TIMEOUT: a request has had no completion within 50 ms (R436). -/
def execPcieCompletionTimeout (tag : Nat) (s : State) : Host.Outcome State Fault Refusal :=
  .next (if s.io.frz then s
    else
      match s.io.pcie.find? fun o => o.tag == tag with
      | none => s
      | some o =>
        failAccess { s with io := { s.io with pcie := s.io.pcie.filter fun x => x.tag != tag } } o.back o.access .tileDown 0)


/-- The key of a tile and a peer. -/
def ansKey (t n : Nat) : Nat := t * 16 + n
/-- An answer is sent to a peer, as the next message of the sequence of a tile and the peer, and kept until the peer acknowledges it
(R351, R441; DEDUCED, notes/assumptions/33.md). -/
def peerAnswer (s : State) (t n : Nat) (bs : List Byte) : State :=
  let seq := s.io.ansSeq.get 0 (ansKey t n)
  { s with io := { s.io with
      peerReads := (n, bs) :: s.io.peerReads
      peerAns := s.io.peerAns ++ [{ tag := freeTag (peerTags s), peer := n, src := t, seq := seq }]
      ansSeq := s.io.ansSeq.put (ansKey t n) (seq + 1) } }
/-- The window of the answers of a tile to a peer is closed: what would need one is not taken (R351, R441). -/
def ansClosed (s : State) (t n : Nat) : Bool :=
  s.io.peerAns.any fun o => o.src == t && o.peer == n && o.seq + 64 == s.io.ansSeq.get 0 (ansKey t n)
/-- The tile that answers a request of a peer: the home of its first byte (DEDUCED, notes/assumptions/33.md). -/
def ansTile : PeerMsg → Option Nat
  | .read off _ | .write off _ | .atomic _ off _ _ _ _ => some (homeTile (devBase + off))
  | .ack _ | .reply .. => none
/-- The range lies in device memory. -/
def inDevice (offset n : Nat) : Bool := decide (offset + n ≤ 384 * 2 ^ 30)
/-- A reply of a peer reaches the request that it answers. A reply to a future access carries the value that the peer's home gave, no
byte, or the code of its fault (DEDUCED, notes/assumptions/33.md). -/
def peerReply (s : State) (o : Outer) (data : List Byte) : State :=
  let t := { s with io := { s.io with peerMsgs := s.io.peerMsgs.filter fun x => x.tag != o.tag } }
  let a := o.access
  let bad := fun (c : Cause) => failAccess t o.back a c 0
  match a.kind with
  | .frd | .fwr .. =>
    let done := match a.kind with
      | .frd => data.length == 8
      | _ => data.isEmpty
    if done then answerAccess t o.back a data none
    else if data = [0x12] then bad .futFull
    else if data = [0x13] then bad .futBusy
    else if data = [0x14] then bad .futForm
    else s
  | .write => if data.isEmpty then answerAccess t o.back a [] none else s
  | .read | .readLine | .atomic .. => if data.length = answerBytes a then answerAccess t o.back a data none else s
/-- A port that PCTL names for a peer is enabled (R440). -/
def peerPort (s : State) (n : Nat) : Bool :=
  let p := (s.io.peers.get {} n).port
  (p != 1 && (s.io.ports.get {} 0).up) || (p != 0 && (s.io.ports.get {} 1).up)
/-- A message of the transport fits into one datagram of a frame of 9,216 bytes (R440). -/
def peerFits : PeerMsg → Bool
  | .read _ size => decide (size ≤ 9216)
  | .write _ data => decide (data.length ≤ 9216)
  | .reply _ data => decide (data.length ≤ 9216)
  | .atomic .. | .ack _ => true
/-- The message only acknowledges one of this device. -/
def isPeerAck : PeerMsg → Bool
  | .ack _ => true
  | .read .. | .write .. | .atomic .. | .reply .. => false
/-- A peer has acknowledged the message with a tag (R351, R441). -/
def peerAcked (s : State) (n tag : Nat) : State :=
  { s with io := { s.io with
      peerMsgs := s.io.peerMsgs.map fun o => if o.tag = tag ∧ peerOf o.access.pa = n then { o with acked := true } else o
      peerAns := s.io.peerAns.filter fun o => !(o.tag == tag && o.peer == n) } }
/-- PEER_MESSAGE: a message of the Carnis transport from a peer is performed at the home, or acknowledges or answers a message (R441). None
comes over a port that is not enabled (R440; DEDUCED, notes/assumptions/33.md). In a freeze the I/O die takes acknowledgements; what is for
the frozen dies goes no further (R448). -/
def execPeerMessage (n : Nat) (m : PeerMsg) (s : State) : Host.Outcome State Fault Refusal :=
  .next (if (s.io.frz && !isPeerAck m) || !s.io.ready || !(s.io.peers.get {} n).en || !peerPort s n || !peerFits m ||
        (ansTile m).any fun t => ansClosed s t n then s
    else
      let answer := fun (s : State) (bs : List Byte) => peerAnswer s ((ansTile m).getD 512) n bs
      match m with
      | .read off size =>
        if !inDevice off size || !(physParts (devBase + off) size).all (hostServes s false) then answer s []
        else
          match engReadParts s 512 (physParts (devBase + off) size) with
          | (bs, false, s) => answer s bs
          | (_, true, s) => answer s []
      | .write off data =>
        let ps := physParts (devBase + off) data.length
        if !inDevice off data.length || !ps.all (hostServes s true) then s else answer (engWriteParts s 512 ps data) []
      | .atomic op off size signed operand compare =>
        if !inDevice off size ∨ (size ≠ 4 ∧ size ≠ 8) ∨ off % size ≠ 0 ∨ 8 ≤ op then answer s []
        else
          let (bs, s) := deviceAtomic s (devBase + off) (8 * size) op signed operand compare
          answer s bs
      | .ack tag => peerAcked s n tag
      | .reply tag data =>
        match s.io.peerMsgs.find? fun o => o.tag == tag && peerOf o.access.pa == n with
        | none => s
        | some o => peerReply s o data)
/-- PEER_RETRANSMIT: a request or an answer that was not acknowledged within 100 µs is sent again, up to 16 times (R441). The I/O die keeps
running in a freeze (R448). -/
def execPeerRetransmit (tag : Nat) (s : State) : Host.Outcome State Fault Refusal :=
  .next (match s.io.peerMsgs.find? fun o => o.tag == tag with
    | none =>
      match s.io.peerAns.find? fun o => o.tag == tag with
      | none => s
      | some o =>
        if o.tries < 16 then
          { s with io := { s.io with peerAns := s.io.peerAns.map fun x => if x.tag = tag then { x with tries := x.tries + 1 } else x } }
        else peerDown s o.peer
    | some o =>
      if o.acked then s
      else if o.tries < 16 then
        { s with io := { s.io with peerMsgs := s.io.peerMsgs.map fun x => if x.tag = tag then { x with tries := x.tries + 1 } else x } }
      else peerDown s (peerOf o.access.pa))

/-! ### Links (R436, R437, R440) -/

/-- PORT_LINK_CHANGE: the link of an enabled Ethernet port comes up, or a port's link goes down (R437, R440). -/
def execPortLinkChange (port : Nat) (up : Bool) (s : State) : Host.Outcome State Fault Refusal :=
  .next (if 2 ≤ port ∨ (s.io.ports.get {} port).link = up ∨ (up ∧ !(s.io.ports.get {} port).up) then s
    else ({ s with io := { s.io with ports := s.io.ports.upd {} port fun p => { p with link := up } } }).raise 5)
/-- A link of the host port: generation 1 to 6 and at most 16 lanes (R434, R436). -/
def hostLinkOk (gen width : Nat) : Bool := decide (1 ≤ gen) && decide (gen ≤ 6) && decide (1 ≤ width) && decide (width ≤ 16)
/-- HOST_LINK_CHANGE: the host link comes up with a generation and a width that the port has, or goes down (R434, R436). -/
def execHostLinkChange (up : Bool) (gen width : Nat) (s : State) : Host.Outcome State Fault Refusal :=
  .next (if up && !hostLinkOk gen width then s
    else { s with io := { s.io with link := up, gen := if up then gen else 0, width := if up then width else 0 } })

/-! ### Reset and attestation (R442 to R444) -/

/-- A firmware image is accepted: its signature verifies, the key store holds its key's hash, and its version is at least the fused minimum
(R442). -/
def imageAccepted (i : ImageInput) : Bool := i.signed && i.keyHeld && decide (Config.minVersion.toNat ≤ i.version.toNat)
/-- The I/O die after the boot, whose stages run in order within the event: set A, else set B, else ERR. Any failure moves the boot to set B,
which SET then names. A boot of set B stops at stage 3 with its device firmware, and with its steward firmware at stage 1 or 2, which is
free (R442; DEDUCED, notes/assumptions/20.md). -/
def bootIo (b : BootInput) (n : Nat) : IoDie :=
  if imageAccepted b.stewardA && imageAccepted b.deviceA then
    { ready := true, stage := 6, version := b.deviceA.version.toNat, steward := b.stewardA.image, device := b.deviceA.image }
  else if imageAccepted b.stewardB && imageAccepted b.deviceB then
    { ready := true, stage := 6, set := 1, version := b.deviceB.version.toNat, steward := b.stewardB.image, device := b.deviceB.image }
  else { err := true, stage := if imageAccepted b.stewardB then 3 else 1 + Config.pick n % 2, set := 1 }
/-- DEVICE_RESET: the device is as right after reset, and boots (R442). What memory outside the device holds stays. -/
def execDeviceReset (b : BootInput) (s : State) : Host.Outcome State Fault Refusal :=
  .next { State.reset with
    io := bootIo b s.freeCtr
    mem := s.mem.filter fun c => 0x1000000000000 ≤ c.1 && c.1 < 0x3000000000000
    freeCtr := s.freeCtr + 2
    stamp := s.stamp
    agenda := s.agenda }

/-- The first 256 bytes of an attestation report, and its signature (R444). -/
def reportHead (s : State) : List Byte :=
  let x := s.io
  let nonce := (List.range 4).flatMap fun i => toBytes 8 (x.goNonce.get 0 i).toNat
  let digest := fun (image : Nat) => (List.range 64).map fun i => Config.digestByte image i
  [0x4C, 0x4D, 0x4E, 0x41] ++ toBytes 4 1 ++ toBytes 8 Config.serial.toNat ++ toBytes 8 s.tower.toNat ++
    toBytes 8 (x.version + x.set * 2 ^ 32) ++ nonce ++ digest x.steward ++ digest x.device ++ ((List.range 32).map fun i => Config.idPubByte i) ++
    List.replicate 32 0
def reportBytes (s : State) : List Byte := reportHead s ++ (List.range 64).map fun i => Config.signatureByte (reportHead s) i
/-- An address has its home outside the compute dies: at the host or at a peer. -/
def homeOutside (pa : Nat) : Bool :=
  match homeAt pa with
  | .host | .peer .. => true
  | .tcm .. | .istore .. | .scratch .. | .device | .regs .. | .nowhere => false
/-- ATTESTATION_REPORT: the report in progress is written, or ERR is set (R444). No home on frozen dies takes one (R448), and one that the
host link drops is counted there as well (R436). -/
def execAttestationReport (s : State) : Host.Outcome State Fault Refusal :=
  .next (if !s.io.attGo then s
    else
      match (if s.io.frz && !homeOutside s.io.goAddr.toNat then none else s.physWrite s.io.goAddr.toNat (reportBytes s)) with
      | some t =>
        let sent := s.io.link || homeAt s.io.goAddr.toNat != .host
        { t with io := { t.io with attGo := false, attDone := t.io.attDone || sent, attErr := t.io.attErr || !sent } }
      | none => { s with io := { s.io with attGo := false, attErr := true } })

/-! ### Power and sensors (R445 to R447) -/

/-- DROOP_EVENT: a cluster's supply sags: its cycles stretch, and its droop events are counted (R445). A frozen cluster has no cycles
(R448). -/
def execDroopEvent (cl : Nat) (s : State) : Host.Outcome State Fault Refusal :=
  .next (if s.io.frz ∨ 384 ≤ cl ∨ (s.cluster cl).sag then s
    else
      s.updCluster cl fun c =>
        { c with sag := true, droops := (List.range 8).map fun j => (j, c.droops.get 0 j + 1) })
/-- SUPPLY_RECOVERY: the supply of a cluster recovers, and its cycles are no longer stretched (R445). -/
def execSupplyRecovery (cl : Nat) (s : State) : Host.Outcome State Fault Refusal :=
  .next (if !s.io.frz ∧ (s.cluster cl).sag then s.updCluster cl fun c => { c with sag := false } else s)
/-- POWER_THROTTLE: the averaged power exceeds the limit, and throttling begins (R446). -/
def execPowerThrottle (watts : Nat) (s : State) : Host.Outcome State Fault Refusal :=
  .next (if watts ≤ s.io.plimLimit then s
    else
      let t := { s with io := { s.io with power := capped 4095 watts, throt := true } }
      if s.io.throt then t else t.raise 6)
/-- POWER_WITHIN_LIMIT: the average has fallen within the limit (R446). -/
def execPowerWithinLimit (watts : Nat) (s : State) : Host.Outcome State Fault Refusal :=
  .next (if s.io.plimLimit < watts then s else { s with io := { s.io with power := watts, throt := false } })
/-- SENSE_INTERVAL: an interval of 2^20 cycles of a core's sensor ends, with the temperature measured (R437, R447). A frozen core has no
cycles (R448). -/
def execSenseInterval (cl core temp : Nat) (s : State) : Host.Outcome State Fault Refusal :=
  .next (if s.io.frz ∨ 384 ≤ cl ∨ 8 ≤ core then s
    else
      let c := s.cluster cl
      let t := temp % 256
      let d := capped 4095 (c.droops.get 0 core)
      let x : Sense := { stress := stressOf t d, droop := d, temp := t }
      let was := (c.sense.get {} core).stress
      let s := s.updCluster cl fun c => { c with sense := c.sense.put core x, droops := c.droops.put core 0 }
      if x.stress = 15 ∧ was ≠ 15 then s.raise 7 else s)

/-! ### Debug and the test access port (R448, R449) -/

/-- DBGCTL_FRZ: a freeze is asserted (R448). -/
def execDbgctlFrz (s : State) : Host.Outcome State Fault Refusal := .next s.freeze
/-- The test access port holds an instruction and the data register that it selects. -/
def tapLoad (s : State) (ir : Nat) (dr : Word) : State := { s with io := { s.io with tap := { s.io.tap with ir := ir, dr := dr } } }
/-- A scan brings out a free value (DEDUCED, notes/assumptions/21.md). -/
def tapScan (s : State) (ir : Nat) : State := (tapLoad s ir (Config.scanWord s.freeCtr)).spend
/-- BYPASS: the one-bit bypass register, which captures zero (R449). -/
def execBypass (s : State) : Host.Outcome State Fault Refusal := .next (tapLoad s 0xFF 0)
/-- IDCODE (R449). -/
def execIdcode (s : State) : Host.Outcome State Fault Refusal := .next (tapLoad s 0x01 0x1B7AE0F3)
/-- SAMPLE/PRELOAD (R449). -/
def execSamplePreload (s : State) : Host.Outcome State Fault Refusal := .next (tapScan s 0x02)
/-- EXTEST (R449). -/
def execExtest (s : State) : Host.Outcome State Fault Refusal := .next (tapScan s 0x03)
/-- FREEZE: a freeze is asserted; without TAPEN, BYPASS (R448, R449). -/
def execFreeze (s : State) : Host.Outcome State Fault Refusal :=
  .next (if s.io.tapen then (tapLoad s 0x20 0).freeze else tapLoad s 0x20 0)
/-- SCANOUT: the scan chains of frozen dies, or zeros while no freeze is active; without TAPEN, BYPASS (R449). -/
def execScanout (s : State) : Host.Outcome State Fault Refusal :=
  .next (if s.io.tapen && s.io.frz then tapScan s 0x21 else tapLoad s 0x21 0)

end Sys2Proof.Machine
end

