-- ==== Sys2Proof/Machine/Dispatch.lean ====
section
/-! DEFINITION. What each instruction and event does: one arm for each constructor, one call of its meaning. -/

namespace Sys2Proof.Machine

def exec (i : Instr) (s : State) : Host.Outcome State Fault Refusal :=
  match i with
  | .nop => Sys2Proof.Machine.execNop s
  | .br x0 => Sys2Proof.Machine.execBr x0 s
  | .call x0 => Sys2Proof.Machine.execCall x0 s
  | .jr x0 => Sys2Proof.Machine.execJr x0 s
  | .callr x0 => Sys2Proof.Machine.execCallr x0 s
  | .ret => Sys2Proof.Machine.execRet s
  | .beq x0 x1 x2 => Sys2Proof.Machine.execBeq x0 x1 x2 s
  | .bne x0 x1 x2 => Sys2Proof.Machine.execBne x0 x1 x2 s
  | .blt x0 x1 x2 => Sys2Proof.Machine.execBlt x0 x1 x2 s
  | .bge x0 x1 x2 => Sys2Proof.Machine.execBge x0 x1 x2 s
  | .bltn x0 x1 x2 => Sys2Proof.Machine.execBltn x0 x1 x2 s
  | .bgen x0 x1 x2 => Sys2Proof.Machine.execBgen x0 x1 x2 s
  | .loop x0 x1 => Sys2Proof.Machine.execLoop x0 x1 s
  | .rep x0 x1 x2 => Sys2Proof.Machine.execRep x0 x1 x2 s
  | .trap x0 => Sys2Proof.Machine.execTrap x0 s
  | .eret => Sys2Proof.Machine.execEret s
  | .start x0 x1 x2 => Sys2Proof.Machine.execStart x0 x1 x2 s
  | .join x0 => Sys2Proof.Machine.execJoin x0 s
  | .hend => Sys2Proof.Machine.execHend s
  | .yield => Sys2Proof.Machine.execYield s
  | .done x0 x1 => Sys2Proof.Machine.execDone x0 x1 s
  | .tend x0 => Sys2Proof.Machine.execTend x0 s
  | .wfi => Sys2Proof.Machine.execWfi s
  | .mfs x0 x1 => Sys2Proof.Machine.execMfs x0 x1 s
  | .mts x0 x1 => Sys2Proof.Machine.execMts x0 x1 s
  | .tlbinv x0 x1 x2 x3 => Sys2Proof.Machine.execTlbinv x0 x1 x2 x3 s
  | .save x0 x1 x2 => Sys2Proof.Machine.execSave x0 x1 x2 s
  | .saveRes x0 x1 x2 => Sys2Proof.Machine.execSaveRes x0 x1 x2 s
  | .rest x0 x1 x2 => Sys2Proof.Machine.execRest x0 x1 x2 s
  | .curf x0 x1 x2 => Sys2Proof.Machine.execCurf x0 x1 x2 s
  | .spawn x0 x1 x2 => Sys2Proof.Machine.execSpawn x0 x1 x2 s
  | .gang x0 x1 x2 => Sys2Proof.Machine.execGang x0 x1 x2 s
  | .tlate x0 => Sys2Proof.Machine.execTlate x0 s
  | .tlateSet x0 x1 => Sys2Proof.Machine.execTlateSet x0 x1 s
  | .ldb x0 x1 x2 => Sys2Proof.Machine.execLdb x0 x1 x2 s
  | .ldbn x0 x1 x2 => Sys2Proof.Machine.execLdbn x0 x1 x2 s
  | .ldh x0 x1 x2 => Sys2Proof.Machine.execLdh x0 x1 x2 s
  | .ldhn x0 x1 x2 => Sys2Proof.Machine.execLdhn x0 x1 x2 s
  | .ldw x0 x1 x2 => Sys2Proof.Machine.execLdw x0 x1 x2 s
  | .ldwn x0 x1 x2 => Sys2Proof.Machine.execLdwn x0 x1 x2 s
  | .ldd x0 x1 x2 => Sys2Proof.Machine.execLdd x0 x1 x2 s
  | .ldq x0 x1 x2 => Sys2Proof.Machine.execLdq x0 x1 x2 s
  | .ldv x0 x1 x2 => Sys2Proof.Machine.execLdv x0 x1 x2 s
  | .stb x0 x1 x2 => Sys2Proof.Machine.execStb x0 x1 x2 s
  | .sth x0 x1 x2 => Sys2Proof.Machine.execSth x0 x1 x2 s
  | .stw x0 x1 x2 => Sys2Proof.Machine.execStw x0 x1 x2 s
  | .std x0 x1 x2 => Sys2Proof.Machine.execStd x0 x1 x2 s
  | .stq x0 x1 x2 => Sys2Proof.Machine.execStq x0 x1 x2 s
  | .stv x0 x1 x2 => Sys2Proof.Machine.execStv x0 x1 x2 s
  | .fetch x0 x1 x2 => Sys2Proof.Machine.execFetch x0 x1 x2 s
  | .rldw x0 x1 x2 => Sys2Proof.Machine.execRldw x0 x1 x2 s
  | .rldd x0 x1 x2 => Sys2Proof.Machine.execRldd x0 x1 x2 s
  | .rstw x0 x1 x2 => Sys2Proof.Machine.execRstw x0 x1 x2 s
  | .rstd x0 x1 x2 => Sys2Proof.Machine.execRstd x0 x1 x2 s
  | .aadd x0 x1 x2 x3 x4 x5 => Sys2Proof.Machine.execAadd x0 x1 x2 x3 x4 x5 s
  | .aand x0 x1 x2 x3 x4 x5 => Sys2Proof.Machine.execAand x0 x1 x2 x3 x4 x5 s
  | .aor x0 x1 x2 x3 x4 x5 => Sys2Proof.Machine.execAor x0 x1 x2 x3 x4 x5 s
  | .axor x0 x1 x2 x3 x4 x5 => Sys2Proof.Machine.execAxor x0 x1 x2 x3 x4 x5 s
  | .amin x0 x1 x2 x3 x4 x5 => Sys2Proof.Machine.execAmin x0 x1 x2 x3 x4 x5 s
  | .amax x0 x1 x2 x3 x4 x5 => Sys2Proof.Machine.execAmax x0 x1 x2 x3 x4 x5 s
  | .aswp x0 x1 x2 x3 x4 x5 => Sys2Proof.Machine.execAswp x0 x1 x2 x3 x4 x5 s
  | .acas x0 x1 x2 x3 x4 x5 => Sys2Proof.Machine.execAcas x0 x1 x2 x3 x4 x5 s
  | .frd x0 x1 => Sys2Proof.Machine.execFrd x0 x1 s
  | .fwr x0 x1 x2 => Sys2Proof.Machine.execFwr x0 x1 x2 s
  | .fence x0 x1 => Sys2Proof.Machine.execFence x0 x1 s
  | .qfence x0 => Sys2Proof.Machine.execQfence x0 s
  | .cwb x0 x1 x2 => Sys2Proof.Machine.execCwb x0 x1 x2 s
  | .cinv x0 x1 x2 => Sys2Proof.Machine.execCinv x0 x1 x2 s
  | .cwbi x0 x1 x2 => Sys2Proof.Machine.execCwbi x0 x1 x2 s
  | .cpin x0 x1 x2 => Sys2Proof.Machine.execCpin x0 x1 x2 s
  | .cunpin x0 x1 x2 => Sys2Proof.Machine.execCunpin x0 x1 x2 s
  | .pref x0 x1 x2 => Sys2Proof.Machine.execPref x0 x1 x2 s
  | .cpgo x0 => Sys2Proof.Machine.execCpgo x0 s
  | .sacq x0 => Sys2Proof.Machine.execSacq x0 s
  | .srel x0 x1 x2 => Sys2Proof.Machine.execSrel x0 x1 x2 s
  | .sget x0 x1 x2 => Sys2Proof.Machine.execSget x0 x1 x2 s
  | .bell x0 x1 => Sys2Proof.Machine.execBell x0 x1 s
  | .bwait x0 => Sys2Proof.Machine.execBwait x0 s
  | .sstep => Sys2Proof.Machine.execSstep s
  | .xsend x0 x1 x2 => Sys2Proof.Machine.execXsend x0 x1 x2 s
  | .greq x0 x1 x2 => Sys2Proof.Machine.execGreq x0 x1 x2 s
  | .collBar x0 x1 => Sys2Proof.Machine.execCollBar x0 x1 s
  | .collAg x0 x1 => Sys2Proof.Machine.execCollAg x0 x1 s
  | .collRs x0 x1 x2 x3 => Sys2Proof.Machine.execCollRs x0 x1 x2 x3 s
  | .collA2a x0 x1 => Sys2Proof.Machine.execCollA2a x0 x1 s
  | .glset x0 x1 x2 => Sys2Proof.Machine.execGlset x0 x1 x2 s
  | .glrun x0 x1 => Sys2Proof.Machine.execGlrun x0 x1 s
  | .glfoot x0 x1 => Sys2Proof.Machine.execGlfoot x0 x1 s
  | .glfootV x0 x1 => Sys2Proof.Machine.execGlfootV x0 x1 s
  | .glnext => Sys2Proof.Machine.execGlnext s
  | .glend x0 => Sys2Proof.Machine.execGlend x0 s
  | .ldbx x0 x1 x2 x3 x4 x5 => Sys2Proof.Machine.execLdbx x0 x1 x2 x3 x4 x5 s
  | .ldbnx x0 x1 x2 x3 x4 x5 => Sys2Proof.Machine.execLdbnx x0 x1 x2 x3 x4 x5 s
  | .ldhx x0 x1 x2 x3 x4 x5 => Sys2Proof.Machine.execLdhx x0 x1 x2 x3 x4 x5 s
  | .ldhnx x0 x1 x2 x3 x4 x5 => Sys2Proof.Machine.execLdhnx x0 x1 x2 x3 x4 x5 s
  | .ldwx x0 x1 x2 x3 x4 x5 => Sys2Proof.Machine.execLdwx x0 x1 x2 x3 x4 x5 s
  | .ldwnx x0 x1 x2 x3 x4 x5 => Sys2Proof.Machine.execLdwnx x0 x1 x2 x3 x4 x5 s
  | .lddx x0 x1 x2 x3 x4 x5 => Sys2Proof.Machine.execLddx x0 x1 x2 x3 x4 x5 s
  | .ldqx x0 x1 x2 x3 x4 x5 => Sys2Proof.Machine.execLdqx x0 x1 x2 x3 x4 x5 s
  | .ldvx x0 x1 x2 x3 x4 x5 => Sys2Proof.Machine.execLdvx x0 x1 x2 x3 x4 x5 s
  | .stbx x0 x1 x2 x3 x4 x5 => Sys2Proof.Machine.execStbx x0 x1 x2 x3 x4 x5 s
  | .sthx x0 x1 x2 x3 x4 x5 => Sys2Proof.Machine.execSthx x0 x1 x2 x3 x4 x5 s
  | .stwx x0 x1 x2 x3 x4 x5 => Sys2Proof.Machine.execStwx x0 x1 x2 x3 x4 x5 s
  | .stdx x0 x1 x2 x3 x4 x5 => Sys2Proof.Machine.execStdx x0 x1 x2 x3 x4 x5 s
  | .stqx x0 x1 x2 x3 x4 x5 => Sys2Proof.Machine.execStqx x0 x1 x2 x3 x4 x5 s
  | .stvx x0 x1 x2 x3 x4 x5 => Sys2Proof.Machine.execStvx x0 x1 x2 x3 x4 x5 s
  | .nopA => Sys2Proof.Machine.execNopA s
  | .add x0 x1 x2 x3 => Sys2Proof.Machine.execAdd x0 x1 x2 x3 s
  | .sub x0 x1 x2 x3 => Sys2Proof.Machine.execSub x0 x1 x2 x3 s
  | .and x0 x1 x2 x3 => Sys2Proof.Machine.execAnd x0 x1 x2 x3 s
  | .or x0 x1 x2 x3 => Sys2Proof.Machine.execOr x0 x1 x2 x3 s
  | .xor x0 x1 x2 x3 => Sys2Proof.Machine.execXor x0 x1 x2 x3 s
  | .andn x0 x1 x2 x3 => Sys2Proof.Machine.execAndn x0 x1 x2 x3 s
  | .shl x0 x1 x2 x3 => Sys2Proof.Machine.execShl x0 x1 x2 x3 s
  | .shr x0 x1 x2 x3 => Sys2Proof.Machine.execShr x0 x1 x2 x3 s
  | .sra x0 x1 x2 x3 => Sys2Proof.Machine.execSra x0 x1 x2 x3 s
  | .mul x0 x1 x2 x3 => Sys2Proof.Machine.execMul x0 x1 x2 x3 s
  | .mulh x0 x1 x2 x3 => Sys2Proof.Machine.execMulh x0 x1 x2 x3 s
  | .div x0 x1 x2 x3 => Sys2Proof.Machine.execDiv x0 x1 x2 x3 s
  | .rem x0 x1 x2 x3 => Sys2Proof.Machine.execRem x0 x1 x2 x3 s
  | .min x0 x1 x2 x3 => Sys2Proof.Machine.execMin x0 x1 x2 x3 s
  | .max x0 x1 x2 x3 => Sys2Proof.Machine.execMax x0 x1 x2 x3 s
  | .seq x0 x1 x2 x3 => Sys2Proof.Machine.execSeq x0 x1 x2 x3 s
  | .sne x0 x1 x2 x3 => Sys2Proof.Machine.execSne x0 x1 x2 x3 s
  | .slt x0 x1 x2 x3 => Sys2Proof.Machine.execSlt x0 x1 x2 x3 s
  | .sle x0 x1 x2 x3 => Sys2Proof.Machine.execSle x0 x1 x2 x3 s
  | .sel x0 x1 x2 x3 => Sys2Proof.Machine.execSel x0 x1 x2 x3 s
  | .popc x0 x1 x2 => Sys2Proof.Machine.execPopc x0 x1 x2 s
  | .clz x0 x1 x2 => Sys2Proof.Machine.execClz x0 x1 x2 s
  | .ctz x0 x1 x2 => Sys2Proof.Machine.execCtz x0 x1 x2 s
  | .ext x0 x1 x2 => Sys2Proof.Machine.execExt x0 x1 x2 s
  | .rol x0 x1 x2 x3 => Sys2Proof.Machine.execRol x0 x1 x2 x3 s
  | .ror x0 x1 x2 x3 => Sys2Proof.Machine.execRor x0 x1 x2 x3 s
  | .bswap x0 x1 x2 => Sys2Proof.Machine.execBswap x0 x1 x2 s
  | .bext x0 x1 x2 x3 => Sys2Proof.Machine.execBext x0 x1 x2 x3 s
  | .bins x0 x1 x2 x3 => Sys2Proof.Machine.execBins x0 x1 x2 x3 s
  | .abs x0 x1 x2 => Sys2Proof.Machine.execAbs x0 x1 x2 s
  | .movi x0 x1 => Sys2Proof.Machine.execMovi x0 x1 s
  | .lui x0 x1 x2 => Sys2Proof.Machine.execLui x0 x1 x2 s
  | .addi x0 x1 x2 => Sys2Proof.Machine.execAddi x0 x1 x2 s
  | .andi x0 x1 x2 => Sys2Proof.Machine.execAndi x0 x1 x2 s
  | .ori x0 x1 x2 => Sys2Proof.Machine.execOri x0 x1 x2 s
  | .xori x0 x1 x2 => Sys2Proof.Machine.execXori x0 x1 x2 s
  | .shli x0 x1 x2 => Sys2Proof.Machine.execShli x0 x1 x2 s
  | .shri x0 x1 x2 => Sys2Proof.Machine.execShri x0 x1 x2 s
  | .srai x0 x1 x2 => Sys2Proof.Machine.execSrai x0 x1 x2 s
  | .rori x0 x1 x2 => Sys2Proof.Machine.execRori x0 x1 x2 s
  | .muli x0 x1 x2 => Sys2Proof.Machine.execMuli x0 x1 x2 s
  | .slti x0 x1 x2 => Sys2Proof.Machine.execSlti x0 x1 x2 s
  | .sltin x0 x1 x2 => Sys2Proof.Machine.execSltin x0 x1 x2 s
  | .seqi x0 x1 x2 => Sys2Proof.Machine.execSeqi x0 x1 x2 s
  | .vadd x0 x1 x2 x3 x4 x5 => Sys2Proof.Machine.execVadd x0 x1 x2 x3 x4 x5 s
  | .vsub x0 x1 x2 x3 x4 x5 => Sys2Proof.Machine.execVsub x0 x1 x2 x3 x4 x5 s
  | .vmul x0 x1 x2 x3 x4 x5 => Sys2Proof.Machine.execVmul x0 x1 x2 x3 x4 x5 s
  | .vdiv x0 x1 x2 x3 x4 x5 => Sys2Proof.Machine.execVdiv x0 x1 x2 x3 x4 x5 s
  | .vmin x0 x1 x2 x3 x4 => Sys2Proof.Machine.execVmin x0 x1 x2 x3 x4 s
  | .vmax x0 x1 x2 x3 x4 => Sys2Proof.Machine.execVmax x0 x1 x2 x3 x4 s
  | .vabs x0 x1 x2 x3 => Sys2Proof.Machine.execVabs x0 x1 x2 x3 s
  | .vneg x0 x1 x2 x3 => Sys2Proof.Machine.execVneg x0 x1 x2 x3 s
  | .vfma x0 x1 x2 x3 x4 x5 => Sys2Proof.Machine.execVfma x0 x1 x2 x3 x4 x5 s
  | .vfms x0 x1 x2 x3 x4 x5 => Sys2Proof.Machine.execVfms x0 x1 x2 x3 x4 x5 s
  | .vsqrt x0 x1 x2 x3 x4 => Sys2Proof.Machine.execVsqrt x0 x1 x2 x3 x4 s
  | .vand x0 x1 x2 x3 x4 => Sys2Proof.Machine.execVand x0 x1 x2 x3 x4 s
  | .vor x0 x1 x2 x3 x4 => Sys2Proof.Machine.execVor x0 x1 x2 x3 x4 s
  | .vxor x0 x1 x2 x3 x4 => Sys2Proof.Machine.execVxor x0 x1 x2 x3 x4 s
  | .vshl x0 x1 x2 x3 x4 => Sys2Proof.Machine.execVshl x0 x1 x2 x3 x4 s
  | .vshr x0 x1 x2 x3 x4 => Sys2Proof.Machine.execVshr x0 x1 x2 x3 x4 s
  | .vcvt x0 x1 x2 x3 x4 x5 => Sys2Proof.Machine.execVcvt x0 x1 x2 x3 x4 x5 s
  | .vceq x0 x1 x2 x3 x4 => Sys2Proof.Machine.execVceq x0 x1 x2 x3 x4 s
  | .vcne x0 x1 x2 x3 x4 => Sys2Proof.Machine.execVcne x0 x1 x2 x3 x4 s
  | .vclt x0 x1 x2 x3 x4 => Sys2Proof.Machine.execVclt x0 x1 x2 x3 x4 s
  | .vcle x0 x1 x2 x3 x4 => Sys2Proof.Machine.execVcle x0 x1 x2 x3 x4 s
  | .vsel x0 x1 x2 x3 x4 => Sys2Proof.Machine.execVsel x0 x1 x2 x3 x4 s
  | .vrsum x0 x1 x2 x3 x4 => Sys2Proof.Machine.execVrsum x0 x1 x2 x3 x4 s
  | .vrmin x0 x1 x2 x3 => Sys2Proof.Machine.execVrmin x0 x1 x2 x3 s
  | .vrmax x0 x1 x2 x3 => Sys2Proof.Machine.execVrmax x0 x1 x2 x3 s
  | .vperm x0 x1 x2 x3 x4 => Sys2Proof.Machine.execVperm x0 x1 x2 x3 x4 s
  | .vbcast x0 x1 x2 x3 => Sys2Proof.Machine.execVbcast x0 x1 x2 x3 s
  | .vslide x0 x1 x2 x3 x4 => Sys2Proof.Machine.execVslide x0 x1 x2 x3 x4 s
  | .vgat x0 x1 x2 x3 x4 => Sys2Proof.Machine.execVgat x0 x1 x2 x3 x4 s
  | .vsct x0 x1 x2 x3 x4 => Sys2Proof.Machine.execVsct x0 x1 x2 x3 x4 s
  | .vextg x0 x1 x2 x3 => Sys2Proof.Machine.execVextg x0 x1 x2 x3 s
  | .vinsg x0 x1 x2 x3 => Sys2Proof.Machine.execVinsg x0 x1 x2 x3 s
  | .aget x0 x1 x2 => Sys2Proof.Machine.execAget x0 x1 x2 s
  | .aput x0 x1 x2 => Sys2Proof.Machine.execAput x0 x1 x2 s
  | .sisect x0 x1 x2 x3 x4 => Sys2Proof.Machine.execSisect x0 x1 x2 x3 x4 s
  | .pand x0 x1 x2 => Sys2Proof.Machine.execPand x0 x1 x2 s
  | .por x0 x1 x2 => Sys2Proof.Machine.execPor x0 x1 x2 s
  | .pxor x0 x1 x2 => Sys2Proof.Machine.execPxor x0 x1 x2 s
  | .pnot x0 x1 => Sys2Proof.Machine.execPnot x0 x1 s
  | .pcnt x0 x1 => Sys2Proof.Machine.execPcnt x0 x1 s
  | .vmov x0 x1 x2 x3 => Sys2Proof.Machine.execVmov x0 x1 x2 x3 s
  | .vmovi x0 x1 => Sys2Proof.Machine.execVmovi x0 x1 s
  | .vpopc x0 x1 x2 x3 => Sys2Proof.Machine.execVpopc x0 x1 x2 x3 s
  | .vclz x0 x1 x2 x3 => Sys2Proof.Machine.execVclz x0 x1 x2 x3 s
  | .vmulh x0 x1 x2 x3 x4 => Sys2Proof.Machine.execVmulh x0 x1 x2 x3 x4 s
  | .mma x0 x1 x2 x3 x4 x5 x6 x7 => Sys2Proof.Machine.execMma x0 x1 x2 x3 x4 x5 x6 x7 s
  | .mmaz x0 x1 x2 x3 x4 x5 x6 x7 => Sys2Proof.Machine.execMmaz x0 x1 x2 x3 x4 x5 x6 x7 s
  | .mmt x0 x1 x2 x3 x4 x5 x6 => Sys2Proof.Machine.execMmt x0 x1 x2 x3 x4 x5 x6 s
  | .twalk x0 x1 x2 x3 x4 x5 x6 x7 => Sys2Proof.Machine.execTwalk x0 x1 x2 x3 x4 x5 x6 x7 s
  | .twres x0 x1 x2 x3 x4 x5 x6 x7 => Sys2Proof.Machine.execTwres x0 x1 x2 x3 x4 x5 x6 x7 s
  | .mcommit => Sys2Proof.Machine.execMcommit s
  | .mwait x0 => Sys2Proof.Machine.execMwait x0 s
  | .aclr x0 x1 x2 => Sys2Proof.Machine.execAclr x0 x1 x2 s
  | .rset x0 x1 x2 => Sys2Proof.Machine.execRset x0 x1 x2 s
  | .rpush x0 x1 x2 => Sys2Proof.Machine.execRpush x0 x1 x2 s
  | .rpop x0 x1 => Sys2Proof.Machine.execRpop x0 x1 s
  | .shp x0 x1 x2 => Sys2Proof.Machine.execShp x0 x1 x2 s
  | .tendRetire x0 => Sys2Proof.Machine.execTendRetire x0 s
  | .hostQueueRead x0 => Sys2Proof.Machine.execHostQueueRead x0 s
  | .spillRefill x0 => Sys2Proof.Machine.execSpillRefill x0 s
  | .taskPlace x0 => Sys2Proof.Machine.execTaskPlace x0 s
  | .granaryProgramPlace x0 => Sys2Proof.Machine.execGranaryProgramPlace x0 s
  | .taskLate x0 => Sys2Proof.Machine.execTaskLate x0 s
  | .uncorrectableError x0 => Sys2Proof.Machine.execUncorrectableError x0 s
  | .llcSectorRetire x0 x1 x2 x3 => Sys2Proof.Machine.execLlcSectorRetire x0 x1 x2 x3 s
  | .domainStall x0 => Sys2Proof.Machine.execDomainStall x0 s
  | .writeBufferDrain x0 x1 => Sys2Proof.Machine.execWriteBufferDrain x0 x1 s
  | .homeAccess x0 => Sys2Proof.Machine.execHomeAccess x0 s
  | .loadDataReturn x0 x1 => Sys2Proof.Machine.execLoadDataReturn x0 x1 s
  | .fetchComplete x0 x1 => Sys2Proof.Machine.execFetchComplete x0 x1 s
  | .translationWalk x0 x1 => Sys2Proof.Machine.execTranslationWalk x0 x1 s
  | .tlbinvComplete x0 => Sys2Proof.Machine.execTlbinvComplete x0 s
  | .waySample x0 => Sys2Proof.Machine.execWaySample x0 s
  | .wayChangeComplete x0 => Sys2Proof.Machine.execWayChangeComplete x0 s
  | .vectorStart x0 => Sys2Proof.Machine.execVectorStart x0 s
  | .vectorComplete x0 x1 => Sys2Proof.Machine.execVectorComplete x0 x1 s
  | .millCommandStart x0 => Sys2Proof.Machine.execMillCommandStart x0 s
  | .millStep x0 => Sys2Proof.Machine.execMillStep x0 s
  | .millCommandRetire x0 => Sys2Proof.Machine.execMillCommandRetire x0 s
  | .rpopPerform x0 => Sys2Proof.Machine.execRpopPerform x0 s
  | .aclrPerform x0 => Sys2Proof.Machine.execAclrPerform x0 s
  | .walkWave x0 => Sys2Proof.Machine.execWalkWave x0 s
  | .copyRow x0 => Sys2Proof.Machine.execCopyRow x0 s
  | .copyComplete x0 => Sys2Proof.Machine.execCopyComplete x0 s
  | .superstepComplete x0 => Sys2Proof.Machine.execSuperstepComplete x0 s
  | .xsendEmit x0 => Sys2Proof.Machine.execXsendEmit x0 s
  | .xsendDelivery x0 => Sys2Proof.Machine.execXsendDelivery x0 s
  | .gatherRequestArrival x0 => Sys2Proof.Machine.execGatherRequestArrival x0 s
  | .gatherReplyEmit x0 => Sys2Proof.Machine.execGatherReplyEmit x0 s
  | .gatherReplyDelivery x0 => Sys2Proof.Machine.execGatherReplyDelivery x0 s
  | .doneArrival x0 => Sys2Proof.Machine.execDoneArrival x0 s
  | .collectiveStart x0 => Sys2Proof.Machine.execCollectiveStart x0 s
  | .collectiveComplete x0 => Sys2Proof.Machine.execCollectiveComplete x0 s
  | .packetInject x0 => Sys2Proof.Machine.execPacketInject x0 s
  | .packetHop x0 x1 x2 => Sys2Proof.Machine.execPacketHop x0 x1 x2 s
  | .packetSuspect x0 x1 x2 => Sys2Proof.Machine.execPacketSuspect x0 x1 x2 s
  | .lanternCapture => Sys2Proof.Machine.execLanternCapture s
  | .bywayEject => Sys2Proof.Machine.execBywayEject s
  | .packetDeliver x0 => Sys2Proof.Machine.execPacketDeliver x0 s
  | .ackArrival x0 => Sys2Proof.Machine.execAckArrival x0 s
  | .linkRetry x0 x1 => Sys2Proof.Machine.execLinkRetry x0 x1 s
  | .routeTableRecompute x0 x1 => Sys2Proof.Machine.execRouteTableRecompute x0 x1 s
  | .routerFail x0 => Sys2Proof.Machine.execRouterFail x0 s
  | .trapEntry x0 x1 => Sys2Proof.Machine.execTrapEntry x0 x1 s
  | .interrupt x0 => Sys2Proof.Machine.execInterrupt x0 s
  | .curfewStop x0 => Sys2Proof.Machine.execCurfewStop x0 s
  | .curfewResume x0 => Sys2Proof.Machine.execCurfewResume x0 s
  | .domainWrite x0 x1 => Sys2Proof.Machine.execDomainWrite x0 x1 s
  | .phaseWrite x0 x1 => Sys2Proof.Machine.execPhaseWrite x0 x1 s
  | .waymaskWrite x0 x1 => Sys2Proof.Machine.execWaymaskWrite x0 x1 s
  | .waylimWrite x0 x1 => Sys2Proof.Machine.execWaylimWrite x0 x1 s
  | .lsWrite x0 x1 x2 => Sys2Proof.Machine.execLsWrite x0 x1 x2 s
  | .mstatWrite x0 x1 => Sys2Proof.Machine.execMstatWrite x0 x1 s
  | .copyRegisterWrite x0 x1 x2 x3 => Sys2Proof.Machine.execCopyRegisterWrite x0 x1 x2 x3 s
  | .netctlWrite x0 x1 => Sys2Proof.Machine.execNetctlWrite x0 x1 s
  | .pctlWrite x0 x1 => Sys2Proof.Machine.execPctlWrite x0 x1 s
  | .registerWrite x0 x1 x2 => Sys2Proof.Machine.execRegisterWrite x0 x1 x2 s
  | .doorbell x0 => Sys2Proof.Machine.execDoorbell x0 s
  | .attestationReport => Sys2Proof.Machine.execAttestationReport s
  | .deviceReset x0 => Sys2Proof.Machine.execDeviceReset x0 s
  | .droopEvent x0 => Sys2Proof.Machine.execDroopEvent x0 s
  | .powerThrottle x0 => Sys2Proof.Machine.execPowerThrottle x0 s
  | .senseInterval x0 x1 x2 => Sys2Proof.Machine.execSenseInterval x0 x1 x2 s
  | .hostBarAccess x0 x1 x2 x3 x4 => Sys2Proof.Machine.execHostBarAccess x0 x1 x2 x3 x4 s
  | .hostAtomicop x0 x1 x2 x3 x4 => Sys2Proof.Machine.execHostAtomicop x0 x1 x2 x3 x4 s
  | .pcieCompletion x0 x1 x2 => Sys2Proof.Machine.execPcieCompletion x0 x1 x2 s
  | .pcieCompletionTimeout x0 => Sys2Proof.Machine.execPcieCompletionTimeout x0 s
  | .peerMessage x0 x1 => Sys2Proof.Machine.execPeerMessage x0 x1 s
  | .peerRetransmit x0 => Sys2Proof.Machine.execPeerRetransmit x0 s
  | .portLinkChange x0 x1 => Sys2Proof.Machine.execPortLinkChange x0 x1 s
  | .dbgctlFrz => Sys2Proof.Machine.execDbgctlFrz s
  | .bypass => Sys2Proof.Machine.execBypass s
  | .idcode => Sys2Proof.Machine.execIdcode s
  | .samplePreload => Sys2Proof.Machine.execSamplePreload s
  | .extest => Sys2Proof.Machine.execExtest s
  | .freeze => Sys2Proof.Machine.execFreeze s
  | .scanout => Sys2Proof.Machine.execScanout s
  | .saveEngineFinish x0 => Sys2Proof.Machine.execSaveEngineFinish x0 s
  | .supplyRecovery x0 => Sys2Proof.Machine.execSupplyRecovery x0 s
  | .powerWithinLimit x0 => Sys2Proof.Machine.execPowerWithinLimit x0 s
  | .hostLinkChange x0 x1 x2 => Sys2Proof.Machine.execHostLinkChange x0 x1 x2 s

end Sys2Proof.Machine
end

