-- ==== Sys2Proof/Machine/Issue.lean ====
section
/-! DEFINITION. How a core issues a bundle: which context, fetching and decoding, the order of faults, pending operands, the
two slots, and the end of the bundle (R22, R23, R43 to R48, R112 to R116). -/

namespace Sys2Proof.Machine

/-! ### Fetching (R43, R116) -/

/-- The two words of a bundle in the instruction store. -/
def storeWords (s : State) (k : Nat) (pc : PC) : Nat × Nat :=
  let a := istoreBase k + 8 * pc.toNat
  (s.readN a 4, s.readN (a + 4) 4)

/-- The captured words of a bundle, in the loop buffer of its owner. -/
def buffered (x : Core) (c : Nat) (pc : PC) : Option (Nat × Nat) :=
  match x.loopBuf with
  | some (o, start, l) => if o = c then l[(pc - start).toNat]? else none
  | none => none

/-- The words that issue: the captured ones where the loop buffer holds the bundle. When a store has since changed the bundle,
the old or the new one issues, chosen for each issue (R116; DEDUCED, notes/assumptions/24.md). -/
def fetchWords (s : State) (k c : Nat) (pc : PC) : (Nat × Nat) × State :=
  let new := storeWords s k pc
  match buffered (s.core k) c pc with
  | some old => if old = new then (new, s) else (if Config.pick s.freeCtr % 2 = 0 then old else new, s.spend)
  | none => (new, s)

/-- The loop buffer captures the body bundle that its owner issues next for the first time; a bundle past the body is none of it (R116). -/
def capture (s : State) (k c : Nat) (pc : PC) (w : Nat × Nat) : State :=
  match (s.core k).loopBuf with
  | some (o, start, l) =>
    if o = c ∧ (pc - start).toNat = l.length ∧ l.length < min 64 (s.ctx k c).ls.len then s.updCore k fun x => { x with loopBuf := some (o, start, l ++ [w]) }
    else s
  | none => s
/-- The loop buffer is released when its owner's loop is no longer active, and taken by a loop that begins (R116). -/
def loopUpkeep (s : State) (k c : Nat) (began : Bool) : State :=
  let s :=
    match (s.core k).loopBuf with
    | some (o, _, _) => if (s.ctx k o).ls.act then s else s.updCore k fun x => { x with loopBuf := none }
    | none => s
  let l := (s.ctx k c).ls
  if began ∧ l.act ∧ (s.core k).loopBuf = none then s.updCore k fun x => { x with loopBuf := some (c, l.start, []) } else s

/-! ### Decoding (R44, R46, R48, R56, R114, R115) -/

/-- The bundle of two words on a core: a Granary core does not have every instruction (R16, R56). -/
def decodeFor (k : Nat) (w : Nat × Nat) : Option Bundle :=
  match decodeBundle w.1 w.2 with
  | .ok b =>
    if isGran k && (b.c.notOnGranary || (b.a.map Instr.notOnGranary).getD false) then none else some b
  | .error _ => none

/-- The opcodes that the C slot of a repeat body may hold (R114). -/
def repAllows (op : Nat) : Bool :=
  op == 0 || op == 0x17 || op == 0x18 || (0x20 ≤ op && op ≤ 0x4B) || (0x4D ≤ op && op ≤ 0x54) || (0x60 ≤ op && op ≤ 0x6E)
/-- A bundle of a repeat body may not issue (R114). -/
def repBars (l : Ls) (pc : PC) (w0 : Nat) : Bool :=
  l.act && l.rep && decide ((pc - l.start).toNat < l.len) && !repAllows (fld w0 24 7)

/-! ### Pending operands (R22, R162, R206, R398) -/

/-- The registers that incomplete operations and queued vector instructions of a context have yet to write. -/
def pendingWrites (x : Core) (c : Nat) : List (RegClass × Nat) :=
  (x.ops.flatMap fun e => if e.2.ctx = c then e.2.instr.destinations else []) ++
    (x.vq.flatMap fun m => if m.ctx = c && !(m.flt.isSome && (match m.instr with
        | .sisect .. => true
        | _ => false)) then m.instr.destinations else [])
/-- The vector registers that queued vector instructions of a context have yet to read. -/
def pendingReads (x : Core) (c : Nat) : List (RegClass × Nat) :=
  x.vq.flatMap fun m =>
    if m.ctx = c then (m.instr.operands.filter fun o => o.cls == .v && o.reads).map fun o => (o.cls, o.num) else []
/-- An operand of the bundle is not available yet. -/
def operandsPending (x : Core) (c : Nat) (b : Bundle) : Bool :=
  let os := b.c.operands ++ (b.a.map Instr.operands).getD []
  let pw := pendingWrites x c
  let pr := pendingReads x c
  os.any fun o => o.cls != .tile && (pw.contains (o.cls, o.num) || (o.writes && pr.contains (o.cls, o.num)))

/-- An operation that an `eret` of the context has performed again is not answered yet: until it is, or until a fault of another has its
trap taken, the return is not over, and the context issues nothing and takes no interrupt. A parked take blocks its context by itself
(R172, R399; DEDUCED, notes/assumptions/52.md). -/
def replaysOut (s : State) (k c : Nat) : Bool :=
  (s.ctx k c).handler.isEmpty && (s.core k).ops.any fun e => e.2.ctx == c && e.2.replayed && e.2.flt.isNone && e.2.stage != .parked

/-! ### The two slots (R45, R47) -/

/-- The C slot performs its effect after the A slot: the forms that leave the bundle's program or give its context up. None of them pushes a
command or joins a queue (R45; DEDUCED, notes/assumptions/17.md). -/
def actsLast : Instr → Bool
  | .trap .. | .eret | .hend => true
  | _ => false
/-- A privileged form, which raises PRIV at user privilege before any other fault but an encoding fault (R48, R57). -/
def privForm : Instr → Bool
  | .eret | .wfi | .tlbinv .. | .save .. | .saveRes .. | .rest .. | .curf .. => true
  | .mts _ sys => sysSup sys.toNat
  | _ => false
/-- The issue fault of a form that acts last, which comes before a fault of the A slot (R48). -/
def lastFault (s : State) : Instr → Option Cause
  | .hend => if s.cur.ctx = 0 then some .helperRole else none
  | _ => none
/-- An encoding fault of the register fields as renamed: the base of a tree walk names no four registers (R56, R115, R270). -/
def renamedBad : Instr → Bool
  | .twalk _ _ b .. | .twres _ _ b .. => !walkBase b
  | _ => false

/-- The A slot of a bundle acts on a state. -/
def runA (a : Instr) (s : State) : Host.Outcome State Fault Refusal := exec a (s.updCur fun x => { x with slotA := true })

/-- The context waits for the take of its `frd` (R172). -/
def inFrd (s : State) : Bool :=
  match s.me.run with
  | .blocked (.frd _) => true
  | _ => false
/-- Both slots, the C slot first: a fault of either prevents both, and a wait of either keeps the bundle from issuing
(R22, R45, R47). A waiting C slot blocks its context after the A slot has acted, and a waiting A
slot (`mwait`) after the C slot; where both would wait the bundle does not issue (DEDUCED, notes/assumptions/16.md). -/
def runInOrder (c a : Instr) (s : State) : Host.Outcome State Fault Refusal :=
  match exec c s with
  | .next t =>
    match t.cur.out with
    | .trap | .stall => .next t
    | .go | .block =>
      match runA a (t.updCur fun x => { x with out := .go }) with
      | .next u =>
        match u.cur.out with
        | .trap => .next (match u.cur.fault with
          | some f => s.trap f.1 f.2
          | none => u)
        | .stall => .next s.stall
        | .go => .next (u.updCur fun x => { x with out := t.cur.out, slotA := false })
        | .block =>
          if t.cur.out = .block || inFrd t then .next s.stall else .next (u.updCur fun x => { x with slotA := false })
      | o => o
  | o => o
/-- Both slots when the C slot acts last. One that has to wait does so as alone, and keeps what it has done (R44). -/
def runLast (c a : Instr) (s : State) : Host.Outcome State Fault Refusal :=
  match lastFault s c with
  | some z => .next (s.trap z)
  | none =>
    match exec c s with
    | .next u =>
      if u.cur.out = .stall then .next u
      else
        match runA a s with
        | .next t =>
          match t.cur.out with
          | .trap => .next t
          | .stall | .block => .next s.stall
          | .go => exec c (t.updCur fun x => { x with slotA := false })
        | o => o
    | o => o
/-- The slots of a bundle. -/
def runBundle (b : Bundle) (s : State) : Host.Outcome State Fault Refusal :=
  match b.a with
  | none => exec b.c s
  | some a => if actsLast b.c then runLast b.c a s else runInOrder b.c a s

/-! ### One bundle of a context -/

/-- The bundle has issued: its context goes on to the next one (R112), the core remembers who issued last (R23), and waits of
`yield` and of the stall census end (R41, R121). -/
def finish (k c : Nat) (i : Instr) (s : State) : State :=
  let began := match i with
    | .loop .. | .rep .. => true
    | _ => false
  let issued := s.cur.out = .go ∨ s.cur.out = .block ∨ (s.cur.out = .trap ∧ s.cur.fault = none ∧ actsLast i)
  let s := if s.cur.out = .go then s.leave k c s.cur.next s.cur.taken else s
  let s := loopUpkeep s k c began
  if issued then
    let s := s.updCore k fun x =>
      { x with last := c, ctxs := x.ctxs.map fun e => (e.1, { e.2 with yieldFor := e.2.yieldFor.erase c }) }
    if isGran k then s else s.rearm (clusterOf k)
  else s

/-- The issuing bundle's record (R45): the registers as both slots read them. -/
def begin (s : State) (k c : Nat) (w : Nat × Nat) : State :=
  let x := s.ctx k c
  let s := s.updCtx k c fun x => { x with run := .ready, yieldFor := [], yieldStay := [] }
  { s with stamp := s.stamp + 2,
           cur := { core := k, ctx := c, pc := x.pc, next := x.pc + 1, w0 := w.1, w1 := w.2, latch := some x,
                    glAt := some (s.core k).gl } }

/-- A decoded bundle of a context issues, faults or waits. Its register fields are renamed first (R115); encoding faults come before
privilege faults, and those before every other (R48). -/
def issueBundle (k c : Nat) (w0 : Nat) (e : Bundle) (s : State) : Host.Outcome State Fault Refusal :=
  let f : Renaming := s.me.ls.renaming
  let b : Bundle := { c := e.c.rename f, a := e.a.map (Instr.rename f) }
  if b.a.any renamedBad then .next (s.trap .illegalEnc)
  else if privForm b.c && !s.me.sup then .next (s.trap .priv)
  else if repBars s.me.ls s.cur.pc w0 || glBars s b.c then .next (s.trap .repForm)
  else if operandsPending s.my c b || engineWorks s.my c then .next s.stall
  else
    match runBundle b s with
    | .next t => .next (finish k c b.c t)
    | o => o

/-- A context that may issue takes a report or an interrupt at its bundle boundary, or issues its next bundle
(R23, R47, R391, R395; DEDUCED, notes/assumptions/29.md). -/
def attempt (s : State) (k c : Nat) : Host.Outcome State Fault Refusal :=
  let told := fun (t : State) => Host.Outcome.next (t.updCur fun x => { x with core := k, ctx := c, out := .trap })
  if (s.ctx k c).nextReport.isSome then told (takeReport s k c)
  else if c = 0 ∧ mayInterrupt s k ∧ !replaysOut s k c then told (takeInterrupt s k)
  else
    let pc := (s.ctx k c).pc
    let (w, s) := fetchWords s k c pc
    let s := capture (begin s k c w) k c pc w
    if replaysOut s k c then .next s.stall
    else
      match decodeFor k w with
      | none => .next (s.trap .illegalEnc)
      | some b => issueBundle k c w.1 b s

/-- A context is a candidate of R23: ready or stalled, and not passed over after a `yield` (R121); a blocked one only to take
a trap (DEDUCED, notes/assumptions/29.md). -/
def candidate (s : State) (k c : Nat) : Bool :=
  let x := s.ctx k c
  match x.run with
  | .ready | .stalled => x.yieldFor.isEmpty || x.yieldStay.isEmpty
  | .blocked (.frd _) => false
  | .blocked _ => x.nextReport.isSome || (c == 0 && mayInterrupt s k)
  | .free | .halted _ | .delegated => false

/-- A blocked context whose condition holds: it is woken before its core issues (R24). -/
def wakeable (s : State) (k c : Nat) : Bool :=
  match (s.ctx k c).run with
  | .blocked w => (s.ctx k c).nextReport.isNone && waitOver s k c w
  | _ => false

/-- A context of a core is ready: it would issue or take a trap now (R22). -/
def readyNow (s : State) (k c : Nat) : Bool :=
  ((s.ctx k c).run == .ready || (s.ctx k c).run == .stalled) &&
    match attempt s k c with
    | .next t => t.cur.out != .stall
    | _ => true
/-- After a `yield`, R23 passes over the context for those others that are ready in its cycle, as they stood before it (R121). -/
def yieldTrim (s : State) (k c : Nat) (t : State) : State :=
  if (t.ctx k c).yieldFor.isEmpty then t
  else
    let l := (t.ctx k c).yieldFor.filter (readyNow s k)
    l.foldl (fun t j => t.updCtx k j fun x => { x with run := .ready }) (t.updCtx k c fun x => { x with yieldFor := l, yieldStay := l })
/-- The first candidate in order that does not stall moves (R22, R23). -/
def firstOf (k : Nat) : List Nat → State → Host.Outcome State Fault Refusal
  | [], s => .next s
  | c :: t, s =>
    if candidate s k c then
      match attempt s k c with
      | .next s' => if s'.cur.out = .stall then firstOf k t s' else .next (yieldTrim s k c s')
      | o => o
    else firstOf k t s

/-- The contexts that were ready at a `yield` and have stayed so (R121). -/
def yieldUpkeep (s : State) (k : Nat) : State :=
  s.updCore k fun x =>
    { x with ctxs := x.ctxs.map fun e =>
        (e.1, { e.2 with yieldStay := e.2.yieldStay.filter fun j => (x.ctxs.get {} j).run == .ready }) }

/-- Lane time passes: the cursors of all clusters in an exchange phase advance together, by an amount that is left free, and stop at
65,535 (R318, R326; DEDUCED, notes/assumptions/8.md). -/
def State.laneTick (s : State) : State :=
  if s.clusters.any fun e => e.2.phase.xp then
    { s with clusters := s.clusters.map fun e =>
        if e.2.phase.xp && !s.clusterStill e.1 then
          (e.1, { e.2 with phase := { e.2.phase with cur := min 65535 (e.2.phase.cur + Config.laneElapsed s.freeCtr) } })
        else e }
  else s
/-- Time passes while a core issues: how much is left free, and TOWER does not go back (R6, R39, R319; DEDUCED, notes/assumptions/8.md). -/
def State.tick (s : State) : State :=
  { s.laneTick with tower := BitVec.ofNat 64 (min (2 ^ 64 - 1) (s.tower.toNat + Config.elapsed s.freeCtr)) }.spend

/-- A core issues at most one bundle (R23). A frozen device issues nothing (R448). -/
def issueCore (s : State) (k : Nat) : Host.Outcome State Fault Refusal :=
  if s.coreStill k || (s.core k).failed then .next s
  else
    let s := yieldUpkeep (wake s.tick k) k
    firstOf k (cyclic (s.core k).last) s

end Sys2Proof.Machine
end

