-- ==== Sys2Proof/Machine/Software.lean ====
section
/-! DEFINITION. What system software does to the machine from outside, where no instruction and no register does it: it resumes a context
halted by delegation, ends a task, and assigns clusters to partitions (R22, R35, R36, R370, R393; DEDUCED,
notes/assumptions/43.md). -/

namespace Sys2Proof.Machine

/-- The system registers of a context (R59). -/
def ctxReg (n : Nat) : Bool := n == 0x031 || n == 0x032 || (decide (0x050 ≤ n) && decide (n ≤ 0x057)) || n == 0x060 || n == 0x061
/-- A piece of a context's state is written by system software (R393). -/
def editCtx (k c : Nat) (s : State) (e : Edit) : State :=
  match e with
  | .g r v => s.updCtx k c fun x => if r < 32 then x.writeG r v else x
  | .p r v => s.updCtx k c fun x => if r < 8 then x.writeP r v else x
  | .v r v => s.updCtx k c fun x => if r < 16 then x.writeV r v else x
  | .sys n v => if ctxReg n then sysWrite s k c n v else s
/-- The context stands halted by delegation; a `rest` has brought it back so too (R393, R409). -/
def Run.isDelegated : Run → Bool
  | .delegated | .halted .delegated => true
  | .free | .ready | .stalled | .blocked _ | .halted _ => false
/-- System software resumes a context halted by delegation, with the effect of `eret` on its trap registers as it finds them or as it has
written them. It writes the state of a core through `save` and `rest`, which take only a core without a context that goes on; the move
stands for the four together (R22, R393, R399; DEDUCED, notes/assumptions/18.md). -/
def resumeDelegated (s : State) (k c : Nat) (edits : List Edit) : State :=
  if s.coreStill k ∨ !(s.ctx k c).run.isDelegated ∨ (!edits.isEmpty ∧ liveUnhalted (s.core k)) then s
  else
    let t := edits.foldl (editCtx k c) s
    s.ifInTurn (returnFromTrap ((t.updCore k fun x => { x with saved := false }).updCtx k c fun x => { x with run := .ready, since := none }) k c)

/-- System software ends a running task with STATE 4 and a cause (R22, R370, R393). -/
def endBySoftware (s : State) (ticket : Nat) (c : Cause) : State :=
  match s.rec? ticket with
  | none => s
  | some r => if s.io.frz ∨ r.state ≠ .running then s else s.endTask ticket c

/-- System software assigns a cluster to a partition (R35, R36). The placement pointer of a partition that is formed by it is 0 (R368),
and the stall census of the domains that lose and gain the cluster rearms (R41). -/
def assignCluster (s : State) (cl p : Nat) : State :=
  if 384 ≤ cl ∨ 64 ≤ p ∨ (s.cluster cl).part = p then s
  else
    let s := if (partClusters s p).isEmpty then { s with reeve := { s.reeve with rp := s.reeve.rp.put p 0 } } else s
    ((s.rearm cl).updCluster cl fun c => { c with part := p }).rearm cl

end Sys2Proof.Machine
end

