-- ==== Sys2Proof/Machine/Agenda.lean ====
section
/-! DEFINITION. Which agent moves next (DESIGN CHOICE, notes/assumptions/1.md), and how a program is placed (DEDUCED, notes/assumptions/2.md). -/

namespace Sys2Proof.Machine

/-- One move. -/
def move (m : Move) (s : State) : Host.Outcome State Fault Refusal :=
  match m with
  | .issue k => if k < 3200 then issueCore s k else .fault .noSuchAgent
  | .event e => exec e s
  | .resume k c edits => .next (resumeDelegated s k c edits)
  | .endTask t c => .next (endBySoftware s t c)
  | .assign cl p => .next (assignCluster s cl p)

/-! ### Events that the state gives cause for -/

/-- The tiles whose interface or router holds something. -/
def netTiles (s : State) : List Nat := (s.net.ifaces.map Prod.fst ++ s.net.routers.map Prod.fst).eraseDups
/-- The clusters that hold state of their own or have a core that does. -/
def liveClusters (s : State) : List Nat :=
  ((s.clusters.map Prod.fst ++ s.cores.map fun e => clusterOf e.1).filter fun cl => cl < 384).eraseDups
/-- The events of the open plane. -/
def netEvents (s : State) : List Instr :=
  (netTiles s).flatMap fun t =>
    let x := s.iface t
    let r := s.router t
    (if x.arr.isEmpty then [] else [.homeAccess t]) ++
      (if x.acks.isEmpty then [] else [.ackArrival t]) ++
      (if x.inbox.isEmpty && r.reserved.isNone then [] else [.packetDeliver t]) ++
      (if x.out.isEmpty && r.spill.isEmpty then [] else [.packetInject t]) ++
      ((r.pkts.map fun p => (p.port, p.rail)).eraseDups.map fun p => .packetHop t p.1 p.2)
/-- The events of a core: its memory operations, its queues, and the end of its task. -/
def coreEvents (s : State) (k : Nat) : List Instr :=
  let x := s.core k
  (x.wb.map fun e => e.bank).eraseDups.map (fun b => .writeBufferDrain k b) ++
    (x.ops.flatMap fun e => [.translationWalk k e.1, .loadDataReturn k e.1]) ++
    (x.fetches.flatMap fun e => [.translationWalk k (128 + e.1), .fetchComplete k e.1]) ++
    (if x.mq.isEmpty then [] else
      [.millCommandStart k, .millCommandRetire k, .rpopPerform k, .aclrPerform k, .walkWave k]) ++
    (if x.cq.isEmpty then [] else [.copyRow k, .copyComplete k]) ++
    (if x.xq.isEmpty && s.gatherings.isEmpty then [] else [.collectiveStart k, .collectiveComplete k]) ++
    (if (s.iface (tileOf k)).ctl.isEmpty then [] else [.doneArrival k]) ++
    [.tendRetire k]
/-- The events of a cluster. -/
def clusterEvents (s : State) (cl : Nat) : List Instr :=
  [.vectorStart cl] ++ ((coresOf cl).flatMap fun k =>
      ((s.core k).vq.filter fun m => m.started).map fun m => .vectorComplete cl m.group) ++
    [.millStep cl, .xsendEmit cl, .xsendDelivery cl, .gatherRequestArrival cl, .gatherReplyEmit cl, .gatherReplyDelivery cl,
      .superstepComplete cl, .tlbinvComplete cl, .saveEngineFinish cl, .wayChangeComplete cl]
/-- The events of the Reeve, of the Curfew and of the I/O die. -/
def otherEvents (s : State) : List Instr :=
  (s.reeve.queues.map fun e => .hostQueueRead e.1) ++
    (List.range 4).flatMap (fun d => [.spillRefill d, .taskPlace d]) ++
    ((s.reeve.recs.filter fun r => r.kind == 2).map fun r => .granaryProgramPlace r.gran) ++
    (s.reeve.recs.map fun r => .taskLate r.ticket) ++
    (s.io.curfews.flatMap fun c => [.curfewStop c.part, .curfewResume c.part]) ++
    (if s.io.attGo then [.attestationReport] else [])
/-- The events that come last: what has waited long, and a domain that nothing moves. -/
def lateEvents (s : State) : List Instr :=
  [.bywayEject, .lanternCapture] ++
    (netTiles s).flatMap (fun t => ((s.router t).pkts.map fun p => (p.port, p.rail)).eraseDups.map fun p => .packetSuspect t p.1 p.2) ++
    (liveClusters s).map fun cl => .domainStall cl
/-- The events tried by a default step, in order. -/
def events (s : State) : List Instr :=
  netEvents s ++ (s.cores.flatMap fun e => coreEvents s e.1) ++ (liveClusters s).flatMap (clusterEvents s) ++ otherEvents s

/-- The first event of a list that does something. A new value of the free counter alone is nothing. -/
def firstEvent : List Instr → State → Option (Host.Outcome State Fault Refusal)
  | [], _ => none
  | e :: t, s =>
    match exec e s with
    | .next u => if { u with freeCtr := s.freeCtr } = s then firstEvent t s else some (.next u)
    | o => some o

/-! ### The default step -/

/-- The cores with a context that may issue or be woken, in order of their numbers from `turn` on. -/
def readyCores (s : State) : List Nat :=
  let l := (s.cores.filter fun e => !e.2.failed && (List.range 11).any fun c => candidate s e.1 c || wakeable s e.1 c).map fun e => e.1
  l.filter (fun k => s.turn ≤ k) ++ l.filter fun k => k < s.turn


/-- A core issues, or with none ready time passes and what has waited long goes on. -/
def issueOrWait (s : State) : Host.Outcome State Fault Refusal :=
  match readyCores s with
  | k :: _ =>
    match issueCore { s with turn := k + 1 } k with
    | .next u => if u.cur.out = .stall then (firstEvent (lateEvents u) u).getD (.next u) else .next u
    | o => o
  | [] => (firstEvent (lateEvents s) s).getD (.next s.tick)

/-- The default step: an instruction at the test access port, the first event that does something, or a core that issues. -/
def defaultStep (s : State) : Host.Outcome State Fault Refusal :=
  match s.io.tap.pend with
  | some w =>
    let s := { s with io := { s.io with tap := { s.io.tap with pend := none } } }
    match decodeTap w with
    | some i => exec i s
    | none => .next s
  | none => (firstEvent (events s) s).getD (issueOrWait s)

/-! ### Placing an instruction -/

/-- The bundle whose bytes a table word fills: the C slot alone, or the A slot beside a `nop`. -/
def tableBundle (w : Nat) : Nat × Nat :=
  match decodeTableSlot w with
  | some i => if (encodeA i).isSome then (0, w) else (w, 0)
  | none => (w, 0)

/-- A word placed where the next step runs it. -/
def placeWord (s : State) (nbits w : Nat) : State :=
  if nbits = 8 then { s with io := { s.io with tap := { s.io.tap with pend := some (w % 256) } }, agenda := [] }
  else
    let b := tableBundle (w % 2 ^ 32)
    let pc := (s.ctx 0 0).pc
    let s := s.write (istoreBase 0 + 8 * pc.toNat) (toBytes 4 b.1 ++ toBytes 4 b.2)
    { s.updCtx 0 0 (fun x => { x with run := .ready }) with agenda := [.issue 0] }

end Sys2Proof.Machine
end

