-- ==== Sys2Proof/Machine/Step.lean ====
section
/-! DEFINITION. One step of the machine, and the placing of an instruction where the next step fetches it. -/

namespace Sys2Proof.Machine

/-- One step: the next move of the agenda, or with an empty agenda the default one (DESIGN CHOICE, notes/assumptions/1.md). -/
def step (s : State) : Host.Outcome State Fault Refusal :=
  match s.agenda with
  | [] => defaultStep s
  | m :: t => move m { s with agenda := t }

/-- The state with an instruction placed where the next step runs it: a word of the test access port at the port, any other
word in the bundle that context 0 of core 0 issues next, in the slot that the decoder reads it in
(DEDUCED, notes/assumptions/2.md, 3.md). -/
def State.withFetchWord (s : State) (nbits w : Nat) : State := placeWord s nbits w

end Sys2Proof.Machine
end

