-- ==== Sys2Proof/Safety.lean ====
section
/-! DEFINITION. The terms in which claims about the machine are stated: answering a next state, what a step leaves unchanged,
entering a handler, and the invariants of a sound state. -/

namespace Sys2Proof.Machine

/-- An instruction or event answers a next state, of which a property holds. -/
def Gives (i : Instr) (s : State) (P : State → Prop) : Prop := ∃ t, exec i s = .next t ∧ P t
/-- A step answers a next state, of which a property holds. -/
def Steps (s : State) (P : State → Prop) : Prop := ∃ t, step s = .next t ∧ P t

/-! ### What stays unchanged -/

/-- Every byte of memory reads as before. -/
def SameMem (s t : State) : Prop := ∀ a, memGet t.mem a = memGet s.mem a
/-- Every byte of memory outside `n` bytes from an address reads as before. -/
def SameMemBut (s t : State) (a n : Nat) : Prop := ∀ x, (x < a ∨ a + n ≤ x) → memGet t.mem x = memGet s.mem x
/-- Everything but the cores, the record of the issuing bundle and memory is as before: clusters, Granaries, network, Reeve, I/O
die, tower, and the rest. -/
def SameUnits (s t : State) : Prop := { t with cores := s.cores, cur := s.cur, mem := s.mem } = s
/-- Every core but one is as before. -/
def SameOtherCores (s t : State) (k : Nat) : Prop := ∀ j, j ≠ k → t.core j = s.core j
/-- On a core, everything but its contexts is as before, and so is every context but one. -/
def SameButCtx (s t : State) (k c : Nat) : Prop :=
  SameOtherCores s t k ∧ { t.core k with ctxs := (s.core k).ctxs } = s.core k ∧ ∀ d, d ≠ c → t.ctx k d = s.ctx k d
/-- As `SameUnits`, but for the place of the clusters' Mill arbiters in their turns (R238). -/
def SameUnitsButTurn (s t : State) : Prop :=
  { t with cores := s.cores, clusters := s.clusters, cur := s.cur, mem := s.mem } = s ∧
    ∀ cl, { t.cluster cl with millP := (s.cluster cl).millP, millLeft := (s.cluster cl).millLeft } = s.cluster cl
/-- Every context of a core has the registers, the program counter and the state that it had. -/
def SameCtxs (s t : State) : Prop := ∀ k c, t.ctx k c = s.ctx k c
/-- Nothing but the issuing context has changed, not even the record of its bundle. -/
def OnlyMe (s t : State) : Prop :=
  SameMem s t ∧ SameUnits s t ∧ SameButCtx s t s.cur.core s.cur.ctx ∧ t.cur = s.cur

/-- The one effect is that a general register of the issuing context holds a value; for g0, which discards writes and reads as
zero, there is no effect at all. -/
def WritesG (s : State) (d : R5) (v : Word) (t : State) : Prop :=
  OnlyMe s t ∧ { t.me with g := s.me.g } = s.me ∧ ∀ r, t.me.readG r = if r = d.toNat ∧ r ≠ 0 then v else s.me.readG r
/-- The one effect is that a predicate of the issuing context holds a value. -/
def WritesP (s : State) (d : R5) (v : Word) (t : State) : Prop :=
  OnlyMe s t ∧ { t.me with p := s.me.p } = s.me ∧ ∀ r, t.me.readP r = if r = d.toNat then v else s.me.readP r
/-- The one effect is that a vector register of the issuing context holds a value. -/
def WritesV (s : State) (d : R5) (v : VWord) (t : State) : Prop :=
  OnlyMe s t ∧ { t.me with v := s.me.v } = s.me ∧ ∀ r, t.me.readV r = if r = d.toNat then v else s.me.readV r

/-- The one effect is on the program counter that the bundle gives: it is `next`, reached by a taken transfer or not. -/
def GoesTo (s : State) (next : PC) (taken : Bool) (t : State) : Prop :=
  { t with cur := s.cur } = s ∧ t.cur = { s.cur with next := next, taken := taken }

/-- The one effect is that the issuing context waits, and its bundle says so. -/
def BlocksOn (s : State) (w : Wait) (t : State) : Prop :=
  SameMem s t ∧ SameUnits s t ∧ SameButCtx s t s.cur.core s.cur.ctx ∧ t.me = { s.me with run := .blocked w } ∧
    t.cur = { s.cur with out := .block }

/-- The cores are as before but for one, of which the contexts too are as before. -/
def OnlyCore (s t : State) (k : Nat) : Prop := SameMem s t ∧ SameUnits s t ∧ SameOtherCores s t k ∧ SameCtxs s t ∧ t.cur = s.cur

/-- The bytes of a store have entered the issuing core's write buffer from a physical address up; memory and everything else is as
before (R142). -/
def Stores (s : State) (a : Nat) (bs : List Byte) (t : State) : Prop :=
  OnlyCore s t s.cur.core ∧ { t.my with wb := s.my.wb } = s.my ∧ (∀ i, i < bs.length → wbByte t.my.wb (a + i) = bs[i]?) ∧
    ∀ x, (x < a ∨ a + bs.length ≤ x) → wbByte t.my.wb x = wbByte s.my.wb x
/-- The same for a store that makes a release first, where that finds nothing to carry (R146): the caches read as before. -/
def StoresReleased (s : State) (a : Nat) (bs : List Byte) (t : State) : Prop :=
  SameMem s t ∧ SameOtherCores s t s.cur.core ∧ SameCtxs s t ∧ t.cur = s.cur ∧ (∀ cl, t.cluster cl = s.cluster cl) ∧
    { t with cores := s.cores, clusters := s.clusters, cur := s.cur, mem := s.mem } = s ∧ { t.my with wb := s.my.wb } = s.my ∧
    (∀ i, i < bs.length → wbByte t.my.wb (a + i) = bs[i]?) ∧
    ∀ x, (x < a ∨ a + bs.length ≤ x) → wbByte t.my.wb x = wbByte s.my.wb x
/-- An operation has taken entry 0 of the operand log, with its instruction, the registers it read and its address; its context is
as before, but that it may wait, and so is memory (R164, R397). -/
def EntersLog (s : State) (i : Instr) (vals : List Word) (ea : Word) (n : Nat) (t : State) : Prop :=
  SameMem s t ∧ t.cur = s.cur ∧ { t.me with run := s.me.run } = s.me ∧
    ∃ o, t.my.ops = [(0, o)] ∧ o.instr = i ∧ o.ctx = s.cur.ctx ∧ o.vals = vals ∧ o.ea = ea ∧ o.size = n ∧ o.flt = none

/-- A command has entered one of the issuing core's engine queues, behind those already there, with its instruction and what it
carries; no register and no byte of memory has changed (R205, R236, R296, R328). -/
def Queues (q : Core → List Cmd) (P : Cmd → Prop) (s : State) (i : Instr) (t : State) : Prop :=
  (∃ m, q t.my = q s.my ++ [m] ∧ m.instr = i ∧ m.ctx = s.cur.ctx ∧ m.started = false ∧ m.flt = none ∧ P m) ∧ OnlyCore s t s.cur.core
/-- A lane group of a cluster holds the one instruction of the cluster's vector queues, that of core `k` (R207). -/
def Holds (s : State) (cl k g : Nat) (m : Cmd) : Prop :=
  s.tileStopped cl = false ∧ k ∈ coresOf cl ∧ (∀ j ∈ coresOf cl, j ≠ k → (s.core j).vq = []) ∧ (s.core k).vq = [m] ∧
    m.started = true ∧ m.group = g
/-- A vector instruction has left the queue, and the registers of its context and memory are as before but for its destination. -/
def LeavesV (s : State) (k : Nat) (m : Cmd) (t : State) : Prop :=
  (t.core k).vq = [] ∧ SameMem s t ∧ SameUnits s t ∧ SameOtherCores s t k ∧ ∀ c, c ≠ m.ctx → t.ctx k c = s.ctx k c

/-! ### Entering a handler (R390) -/

/-- A context has entered its handler: TRAPCAUSE holds the code, INFO and the privilege it had, TRAPPC the resume address, the
loop is held, and it runs at supervisor privilege from TRAPVEC.BASE. Everything else of it is as before (its registers, LC, the copy
registers, its reports), and so are memory, the other contexts, the other cores, and all that the core itself holds: but that the checks
of its Gleaner body are suspended (R430) and its loop gives up the loop buffer (R116). -/
def Enters (s : State) (k c : Nat) (code : Nat) (info : BitVec 32) (after : Bool) (t : State) : Prop :=
  let x := s.ctx k c
  let y := t.ctx k c
  let u := s.core k
  y = { x with
        cause := { info := info, logix := y.cause.logix, sel := 0, inh := true, skip := false, ppriv := x.sup, after := after, code := code }
        trapPc := x.pc, pc := u.trapvec.extractLsb' 0 13, sup := true, run := .ready, ls := { x.ls with held := x.ls.act, act := false }
        handler := y.handler, since := none, yieldFor := [], yieldStay := [] } ∧
    y.handler ≠ [] ∧ y.handler.tail = x.handler ∧
    { t.core k with ctxs := u.ctxs, gl := u.gl, loopBuf := u.loopBuf } = u ∧
    (t.core k).gl = (if u.gl.own = c then { u.gl with suspended := true } else u.gl) ∧
    (t.core k).loopBuf = u.loopBuf.filter (fun b => b.1 != c) ∧
    (∀ d, d ≠ c → t.ctx k d = s.ctx k d) ∧ SameOtherCores s t k ∧ SameMem s t ∧ SameUnits s t
/-- A trap of the context leads into the handler: TRAPVEC.EN is 1 and INH is 0 (R390, R393, R394). -/
def MayEnter (s : State) (k c : Nat) : Prop := (s.core k).trapvec.getLsbD 17 = true ∧ (s.ctx k c).cause.inh = false
/-- The issuing bundle did not issue: its context has taken a fault precisely, and the record of the bundle names it (R47, R390). -/
def Faults (s : State) (code : Nat) (info : BitVec 32) (t : State) : Prop :=
  Enters s s.cur.core s.cur.ctx code info false t ∧
    ∃ c : Cause, c.code = code ∧ t.cur = { s.cur with out := .trap, fault := some (c, info) }

/-! ### Ordinary circumstances of an instruction -/

/-- No body of a Gleaner loop checks what the issuing context does (R424, R430). -/
def NoBody (s : State) : Prop := glActive s = false
/-- The issuing core exists and has nothing outstanding: no memory operation, no fetch, no buffered store (R142, R158, R166). -/
def Quiet (s : State) : Prop := s.cur.core < 3200 ∧ s.my.ops = [] ∧ s.my.fetches = [] ∧ s.my.wb = [] ∧ s.my.wbOut = 0

/-- The caches that the issuing core's accesses pass hold no line, and no ring of the core is guarded (R143, R144, R245). -/
def NoCopies (s : State) : Prop :=
  s.my.l1 = [] ∧ (s.cluster (clusterOf s.cur.core)).cc = [] ∧ ∀ r ∈ s.my.rings, r.2.guard = false
/-- The caches that the issuing core's accesses pass hold no dirty byte (R143, R144). -/
def CleanCaches (s : State) : Prop :=
  (∀ l ∈ s.my.l1, l.dirty = []) ∧ ∀ l ∈ (s.cluster (clusterOf s.cur.core)).cc, l.dirty = []
/-- No rule forbids the issuing context an access, as far as the translations at hand say, and it writes no shadow stack
(R106, R130 to R136, R317). -/
def Allowed (s : State) (write : Bool) (ea : Word) (n : Nat) : Prop :=
  issueFault s write ea n = none ∧
    (match resolve s s.cur.core s.me.sup write ea.toNat n with
      | .ok ps => (shadowPart write ps).isNone
      | .bad .. | .miss => true) = true

/-- No failure that the distance tables know of keeps a message from its tile (R356). -/
def Reachable (s : State) : Prop := ∀ a b, unreachable s a b = false
/-- Every message of the open plane and every request to a peer has been delivered and acknowledged, so that what the units exchange passes
in turn (R351, R352, R441). -/
def Settled (s : State) : Prop :=
  (∀ e ∈ s.net.pairs, e.2.deliver = e.2.next ∧ e.2.acked = e.2.next) ∧ ∀ o ∈ s.io.peerMsgs, o.acked = true
/-- The issuing core's engine queues are empty. -/
def NoQueues (s : State) : Prop := s.my.vq = [] ∧ s.my.mq = [] ∧ s.my.cq = [] ∧ s.my.xq = []
/-- No context of a core is blocked. -/
def NoneBlocked (s : State) (k : Nat) : Prop := ∀ c w, (s.ctx k c).run ≠ .blocked w

/-- Context `c` of core `k` is the only one of the core that may move: it is ready, runs no loop and no Gleaner body, waits for
nothing, and has no report; the other contexts are free and no interrupt is pending. -/
def Alone (s : State) (k c : Nat) : Prop :=
  k < 3200 ∧ c ≤ 10 ∧ s.coreStill k = false ∧ (s.core k).failed = false ∧ (s.ctx k c).run = .ready ∧ (s.ctx k c).yieldFor = [] ∧
    (s.ctx k c).reports = [] ∧ (s.ctx k c).ls.act = false ∧ (s.ctx k c).yieldStay = [] ∧
    (∀ d, d ≠ c → (s.ctx k d).run = .free ∧ (s.ctx k d).yieldFor = [] ∧ (s.ctx k d).yieldStay = []) ∧ (s.core k).irq = [] ∧
    (s.core k).loopBuf = none ∧ (s.core k).ops = [] ∧ (s.core k).vq = [] ∧ (s.core k).gl.run = false

/-- The two words that a context fetches: 8 bytes of its core's instruction store at eight times its program counter (R43). -/
def Fetches (s : State) (k c w0 w1 : Nat) : Prop :=
  let a := istoreBase k + 8 * (s.ctx k c).pc.toNat
  s.readN a 4 = w0 ∧ s.readN (a + 4) 4 = w1

/-- What a context finds when its bundle issues: the registers, memory and program counter it had, and a record of the bundle that
goes on at the next address unless the bundle says otherwise (R45, R112); of the clusters, only the lane cursor may have moved (R326). -/
def IssuesAt (s : State) (k c w0 w1 : Nat) (u : State) : Prop :=
  u.cur = { core := k, ctx := c, pc := (s.ctx k c).pc, next := (s.ctx k c).pc + 1, w0 := w0, w1 := w1, latch := some (s.ctx k c),
              glAt := some (s.core k).gl } ∧
    u.me = s.ctx k c ∧ u.mem = s.mem ∧ SameButCtx s u k c ∧
    (∀ cl, ∃ n, u.cluster cl = { s.cluster cl with phase := { (s.cluster cl).phase with cur := n } }) ∧
    { u with cores := s.cores, clusters := s.clusters, tower := s.tower, freeCtr := s.freeCtr, stamp := s.stamp, cur := s.cur } = s

/-! ### Invariants -/

/-- A sound state: memory is in canonical form. -/
def SoundMem (s : State) : Prop := memWf s.mem = true

end Sys2Proof.Machine

/-! ### The arithmetic of R96 to R98 on bit vectors, and rounding (R76 to R78) -/

namespace Sys2Proof.Spec

/-- The value that a result of width `w` is in a 64-bit register: extended with its sign for a signed type, with zeros otherwise
(R96). -/
def ext (t : Ty) (y : BitVec t.w) : Word := if t.signed then y.signExtend 64 else y.setWidth 64
/-- A comparison's value (R97). -/
def bit (b : Bool) : Word := if b then 1 else 0
/-- Less than, as the type reads its operands (R96). -/
def lt (t : Ty) (x y : BitVec t.w) : Bool := if t.signed then x.slt y else x.ult y
/-- div and rem with their decided cases (R98). -/
def div (t : Ty) (x y : BitVec t.w) : BitVec t.w :=
  if y = 0 then BitVec.allOnes t.w else if t.signed then x.sdiv y else x.udiv y
def rem (t : Ty) (x y : BitVec t.w) : BitVec t.w := if y = 0 then x else if t.signed then x.srem y else x.umod y
/-- The merge of two lists (R229), of at most so many passes: what is left of each, and the matches in their order. -/
def meet : Nat → List Nat → List Nat → List Nat × List Nat × List Nat
  | n + 1, x :: xs, y :: ys =>
    if x < y then meet n xs (y :: ys)
    else if y < x then meet n (x :: xs) ys
    else
      let r := meet n xs ys
      (r.1, r.2.1, x :: r.2.2)
  | _, xs, ys => (xs, ys, [])
/-- m × 2^e compared with n × 2^q, exactly. -/
def cmp (m : Nat) (e : Int) (n : Nat) (q : Int) : Ordering := compare (m * 2 ^ (e - q).toNat) (n * 2 ^ (q - e).toNat)
/-- The value of an encoding of no sign, as if no exponent were special, in units of the least subnormal (R70). -/
def mag (f : Machine.Fmt) (a : Nat) : Nat :=
  if a < 2 ^ f.mb then a else (2 ^ f.mb + a % 2 ^ f.mb) * 2 ^ (a / 2 ^ f.mb - 1)
/-- The exponent of a quarter of the least subnormal. -/
def quarter (f : Machine.Fmt) : Int := -1 - (f.bias : Int) - f.mb
/-- In a mode, a value of a sign that is not exact goes away from zero; or it goes to the nearest (R76). -/
def away (md : Rm) (neg : Bool) : Bool := md == .rup && !neg || md == .rdn && neg
def nearest (md : Rm) : Bool := md != .rtz && md != .rup && md != .rdn
/-- A result is an exact value rounded once: `a` is the last encoding not above its magnitude, which `c` compares with quarters of the least
subnormal. What is rounded beyond the largest finite value is an overflow; a value is tiny when it stays below the smallest normal also if
it is rounded with no bound on the exponent (R76 to R78). -/
def Rounded (f : Machine.Fmt) (md : Rm) (neg : Bool) (c : Nat → Ordering) (r : Machine.FRes) : Prop :=
  ∃ a, a ≤ f.largest + 1 ∧ c (4 * mag f a) ≠ .lt ∧ (a ≤ f.largest → c (4 * mag f (a + 1)) = .lt) ∧
    let exact := c (4 * mag f a) == .eq
    let mid := c (2 * (mag f a + mag f (a + 1)))
    let up := !exact && (away md neg || nearest md && (mid == .gt || mid == .eq && a % 2 == 1))
    let b := if up then a + 1 else a
    let least := 4 * 2 ^ f.mb
    let tiny := c least == .lt && (!away md neg || c (least - 2) != .gt) && (!nearest md || c (least - 1) == .lt)
    let sign := if neg then 2 ^ (f.eb + f.mb) else 0
    r = if f.largest < b then
        if f.e4m3 then { bits := sign + 0x7E, fl := { csat := true } }
        else { bits := sign + if nearest md || away md neg then f.largest + 1 else f.largest, fl := { ovf := true, nx := true } }
      else { bits := sign + b, fl := { nx := !exact, uf := !exact && tiny } }

/-- The upper half of the exact product (R97). -/
def mulh (t : Ty) (x y : BitVec t.w) : BitVec t.w :=
  if t.signed then BitVec.ofInt t.w (x.toInt * y.toInt / (2 ^ t.w : Nat)) else BitVec.ofNat t.w (x.toNat * y.toNat / 2 ^ t.w)

end Sys2Proof.Spec
end

