-- ==== Sys2Proof/Certificates/Slice0/Obligations.lean ====
section
/-! DEFINITION. The statements of this slice, for the provers. Each says what the rules of spec/ say an instruction or the machine
does; the terms are those of Sys2Proof/Safety.lean. -/

open Sys2Proof Sys2Proof.Machine

/-! ### Encoding, fetching and reset -/

/-- R43 to R56, R63, R449: words that the manual spells out (04_encoding_commentary, 08_scalar_control_commentary) decode to what it
says they are, and the malformed ones that it lists do not decode. -/
def Obligations.DecodedWords : Prop :=
  decodeBundle 0x00000000 0x00000000 = .ok ⟨.nop, some .nopA⟩ ∧ decodeBundle 0x80000000 0x00000000 = .ok ⟨.nop, none⟩ ∧
    decodeBundle 0x00000000 0x023214C0 = .ok ⟨.nop, some (.add 3 4 5 .i64)⟩ ∧
    decodeBundle 0x64308E02 0x023214C0 = .ok ⟨.ldwx 6 2 7 .pl .ctx 2, some (.add 3 4 5 .i64)⟩ ∧
    decodeBundle 0xE4308ED2 0x00000000 = .ok ⟨.ldwx 6 2 7 .acq .dev 2, none⟩ ∧
    decodeBundle 0x00000000 0x44427FFF = .ok ⟨.nop, some (.addi 4 4 0x7FFF)⟩ ∧
    decodeBundle 0x00000000 0x60110D52 = .ok ⟨.nop, some (.vadd 1 2 3 2 .bf16 .rtz)⟩ ∧
    decodeBundle 0xBE0001A0 0x00000000 = .ok ⟨.fence .ar .clu, none⟩ ∧
    decodeBundle 0x8D3A0002 0x00000000 = .ok ⟨.rep 7 4 2, none⟩ ∧ decodeBundle 0x9100C000 0x00000000 = .ok ⟨.join 3, none⟩ ∧
    decodeBundle 0x0621BFFD 0x44420001 = .ok ⟨.beq 4 6 0x3FFD, some (.addi 4 4 1)⟩ ∧
    decodeBundle 0xBE0001A0 0x023214C0 = .error .loneWord ∧ decodeBundle 0x55000000 0x00000000 = .error .unassigned ∧
    decodeBundle 0x0E010000 0x00000000 = .error .reservedField ∧ decodeTap 0x01 = some .idcode

/-- R49 to R55, R449: every well-formed instruction that has an encoding is read back from it, with every operand at every value: the
word of a C-slot instruction (below bit 31), of an A-slot instruction, and of a test-access-port instruction. -/
def Obligations.DecodeOfEncode : Prop :=
  ∀ i : Instr, WellFormed i →
    (i.place = .c → ∃ w, encodeC i = some w ∧ w < 2 ^ 31 ∧ decodeC w = .ok i) ∧
      (i.place = .a → ∃ w, encodeA i = some w ∧ w < 2 ^ 32 ∧ decodeA w = .ok i) ∧
      (i.place = .tap → ∃ w, encodeTap i = some w ∧ w < 2 ^ 8 ∧ decodeTap w = some i)

/-- R44, R46, R50, R56: a bundle that decodes holds well-formed instructions of their slots, names no destination twice, and has no bit
outside their fields: its words are the encodings of its instructions, with bit 31 of word 0 set and word 1 zero when the C slot stands
alone. Any other pair of words is no instruction. -/
def Obligations.EncodeOfDecode : Prop :=
  ∀ (w0 w1 : Nat) (b : Bundle), w0 < 2 ^ 32 → w1 < 2 ^ 32 → decodeBundle w0 w1 = .ok b →
    WellFormed b.c ∧ b.c.place = .c ∧
      ((b.a = none ∧ encodeC b.c = some (w0 - 2 ^ 31) ∧ 2 ^ 31 ≤ w0 ∧ w1 = 0) ∨
        ∃ a, b.a = some a ∧ WellFormed a ∧ a.place = .a ∧ encodeC b.c = some w0 ∧ encodeA a = some w1 ∧
          sameDestination b.c a = false)

/-- R43 to R48, R56: a core whose turn it is issues the bundle that its one ready context fetches. A lone bundle that decodes to an
instruction runs exactly that instruction, on the registers the context has, and then the end-of-body check and the upkeep of the core
(`finish`) are made; words that do not decode raise ILLEGAL_ENC instead. Of two slots, a privileged C slot at user privilege raises PRIV
before all else; a fault of the C slot is the bundle's; the A slot acts on what the C slot has done; and where the A slot faults, nothing of
the bundle but that fault happens. Both slots read their general registers at issue (stated of `mfs` beside `add`). Forms that leave or end
their program act after the A slot (log 17) and are stated as lone bundles. R22, R206: a bundle issues nothing while a register that it
names is still to be written by an operation or a queued vector instruction of its context, or while it would write a vector register that
such an instruction reads or writes. An event of the agenda runs that event. Which agent moves next, and where a test-access-port word
waits, are the model's own (log 1, 2, 21). -/
def Obligations.StepRunsDecoded : Prop :=
  (∀ (s : State) (k c w0 w1 : Nat) (rest : List Move), s.agenda = .issue k :: rest →
    Alone s k c → Fetches s k c w0 w1 →
      ∃ u, IssuesAt { s with agenda := rest } k c w0 w1 u ∧
        (decodeFor k (w0, w1) = none → step s = .next (u.trap .illegalEnc)) ∧
        (∀ (i : Instr) (t : State), decodeFor k (w0, w1) = some ⟨i, none⟩ → exec i u = .next t → t.cur.out ≠ .stall →
          step s = .next (finish k c i t)) ∧
        (∀ i a : Instr, decodeFor k (w0, w1) = some ⟨i, some a⟩ → privForm i = true → u.me.sup = false →
          step s = .next (u.trap .priv)) ∧
        (∀ (i a : Instr) (t : State), decodeFor k (w0, w1) = some ⟨i, some a⟩ → (privForm i = true → u.me.sup = true) →
          actsLast i = false → exec i u = .next t →
          (t.cur.out = .trap → step s = .next (finish k c i t)) ∧
            (t.cur.out = .go → ∀ v : State, exec a (t.updCur fun x => { x with slotA := true }) = .next v →
              (v.cur.out = .go → step s = .next (finish k c i (v.updCur fun x => { x with slotA := false }))) ∧
                ∀ (z : Cause) (info : BitVec 32), v.cur.out = .trap → v.cur.fault = some (z, info) →
                  step s = .next (finish k c i (u.trap z info)))) ∧
        (∀ d e b : R5, decodeFor k (w0, w1) = some ⟨.mfs d 0x032, some (.add e d b .i64)⟩ →
          let x := s.ctx k c
          Steps s fun t => (t.ctx k c).pc = x.pc + 1 ∧ ∀ r, (t.ctx k c).readG r =
            if r = e.toNat ∧ r ≠ 0 then x.readG d.toNat + x.readG b.toNat else if r = d.toNat ∧ r ≠ 0 then x.trapPc.setWidth 64
            else x.readG r)) ∧
    (∀ (s : State) (w0 : Nat) (d a b r x : R5) (imm : BitVec 14) (pg : BitVec 3) (t : Ty) (rm : Rm), s.me.ls.act = false → NoBody s →
      let k := s.cur.core
      let c := s.cur.ctx
      let stalls := fun (i : Instr) (o : Option Instr) => issueBundle k c w0 ⟨i, o⟩ s = .next s.stall
      let op := fun (i : Instr) => ∃ o ∈ s.my.ops, o.2.ctx = c ∧ o.2.instr = i
      let queued := fun (i : Instr) => ∃ m ∈ s.my.vq, m.ctx = c ∧ m.instr = i ∧ m.flt = none
      ((op (.ldd r x imm) ∨ queued (.vextg r a b t)) → r ≠ 0 → (r = d ∨ r = a ∨ r = b) → stalls .nop (some (.add d a b .i64))) ∧
        (queued (.vadd d a b pg t rm) → (r = d ∨ r = a ∨ r = b) → stalls (.ldv r x imm) none) ∧
        (queued (.vadd d a b pg t rm) → stalls (.stv d x imm) none)) ∧
    (∀ (s : State) (e : Instr) (rest : List Move), s.agenda = .event e :: rest → step s = exec e { s with agenda := rest }) ∧
    (∀ (s : State) (w : Nat) (i : Instr), s.agenda = [] → s.io.tap.pend = some w → decodeTap w = some i →
      step s = exec i { s with io := { s.io with tap := { s.io.tap with pend := none } } })

/-- R9, R22, R142, R442: after reset every context is free with its registers zero, nothing is queued or outstanding anywhere, memory
lists nothing, and the system registers read their reset values (those of a context whose number is `c`): TOWER and PHASE (R318), MSTAT
(R92), FMTA, FMTB, SCLA and SCLB (R249), MWEIGHT (R239), VSHARE (R210), WAYMASK (R150), WAYLIM (R151), TRAPVEC, TRAPCAUSE and TRAPPC (R389),
GLSTAT (R416), and the copy registers (R298 to R302). That registers without a stated reset value are zero, and that unwritten memory reads
as 0, are the model's choices (log 4, 5). -/
def Obligations.ResetState : Prop :=
  let s := State.reset
  (∀ k c, (s.ctx k c).run = .free ∧ (∀ r, (s.ctx k c).readG r = 0) ∧ (∀ r, (s.ctx k c).readP r = 0) ∧
      (∀ r, (s.ctx k c).readV r = 0) ∧ (s.ctx k c).reports = []) ∧
    (∀ k, (s.core k).ops = [] ∧ (s.core k).wb = [] ∧ (s.core k).l1 = [] ∧ (s.core k).vq = [] ∧ (s.core k).mq = [] ∧ (s.core k).cq = [] ∧
      (s.core k).xq = [] ∧ (s.core k).irq = []) ∧
    s.mem = [] ∧ s.reeve.recs = [] ∧ s.io.ready = false ∧ s.io.frz = false ∧
    ∀ k c, k < 3072 →
      let r := fun n => (sysRead s k c n).toNat
      r 0x001 = 0 ∧ r 0x003 = 0 ∧ r 0x010 = 1 ∧ r 0x011 = 9 ∧ r 0x012 = 9 ∧ r 0x013 = 0 ∧ r 0x014 = 0 ∧ r 0x015 = 0x11111111 ∧
        r 0x016 = 0x11111111 ∧ r 0x020 = 0x8FF00 ∧ r 0x021 = 0x1140808 ∧ r 0x030 = 0 ∧ r 0x031 = 0 ∧ r 0x032 = 0 ∧
        r 0x040 = 0xF000000000 ∧ r 0x050 = 0 ∧ r 0x051 = 0 ∧ r 0x055 = 0x22 ∧ r 0x056 = 0 ∧ r 0x057 = 0 ∧ r 0x060 = 0 ∧ r 0x061 = 0

/-- The model's invariant holds at reset: memory is in canonical form. The form is the model's own (log 4). -/
def Obligations.ResetSound : Prop := SoundMem State.reset

/-- Every step keeps the canonical form of memory: strictly rising addresses, and no byte listed that an unlisted address reads as. So
equal memories are equal data, whatever was written and in whatever order. The form is the model's own (log 4). -/
def Obligations.StepKeepsMemoryForm : Prop := ∀ s t : State, SoundMem s → step s = .next t → SoundMem t

/-- R4: a read of memory gives the bytes last written there, least significant first, and a write leaves every other byte alone. That an
unwritten byte reads as 0 is the model's choice (log 4). -/
def Obligations.MemoryReadAfterWrite : Prop :=
  ∀ (s : State) (a n : Nat) (x : Nat),
    ((s.writeN a n x).readN a n = x % 256 ^ n) ∧ SameMemBut s (s.writeN a n x) a n ∧ SameUnits s (s.writeN a n x) ∧
      (∀ bs : List Byte, (s.write a bs).read a bs.length = bs)

/-! ### Integer instructions -/

/-- R97, R98: the two-source integer instructions compute gD from the low W bits of gA and gB, and change nothing else. The type is one
of i32, i64, n32 and n64 (R96). That g0 reads as zero and discards a write is the model's reading (log 6). -/
def Obligations.IntegerTwoSource : Prop :=
  ∀ (s : State) (d a b : R5) (t : Ty), (t = .i32 ∨ t = .i64 ∨ t = .n32 ∨ t = .n64) →
    let x : BitVec t.w := (s.srcG a).setWidth t.w
    let y : BitVec t.w := (s.srcG b).setWidth t.w
    let k := (s.srcG b).toNat % t.w
    let is := fun (i : Instr) (r : BitVec t.w) => Gives i s (WritesG s d (Spec.ext t r))
    let cmp := fun (i : Instr) (r : Bool) => Gives i s (WritesG s d (Spec.bit r))
    is (.add d a b t) (x + y) ∧ is (.sub d a b t) (x - y) ∧ is (.and d a b t) (x &&& y) ∧ is (.or d a b t) (x ||| y) ∧
      is (.xor d a b t) (x ^^^ y) ∧ is (.andn d a b t) (x &&& ~~~y) ∧ is (.shl d a b t) (x <<< k) ∧ is (.shr d a b t) (x >>> k) ∧
      is (.sra d a b t) (x.sshiftRight k) ∧ is (.rol d a b t) (x.rotateLeft k) ∧ is (.ror d a b t) (x.rotateRight k) ∧
      is (.mul d a b t) (x * y) ∧ is (.mulh d a b t) (Spec.mulh t x y) ∧ is (.div d a b t) (Spec.div t x y) ∧
      is (.rem d a b t) (Spec.rem t x y) ∧ is (.min d a b t) (if Spec.lt t x y then x else y) ∧
      is (.max d a b t) (if Spec.lt t x y then y else x) ∧ cmp (.seq d a b t) (x == y) ∧ cmp (.sne d a b t) (x != y) ∧
      cmp (.slt d a b t) (Spec.lt t x y) ∧ cmp (.sle d a b t) (!Spec.lt t y x)

/-- R99, R100: popc, clz, ctz, bswap and abs compute gD from the low W bits of gA, ext from its low 8, 16 or 32 bits, and sel chooses
between gB and gC; nothing else changes. `pcnt` (R220) to g0 changes nothing. That g0 reads as zero and discards a write is the model's
reading (log 6). -/
def Obligations.IntegerOneSource : Prop :=
  ∀ (s : State) (d a b c : R5) (t : Ty),
    ((t = .i32 ∨ t = .i64 ∨ t = .n32 ∨ t = .n64) →
      let x : BitVec t.w := (s.srcG a).setWidth t.w
      Gives (.popc d a t) s (WritesG s d (BitVec.ofNat 64 ((List.range t.w).countP fun i => x.getLsbD i))) ∧
      (∃ n : Nat, n ≤ t.w ∧ (∀ i, t.w - n ≤ i → x.getLsbD i = false) ∧ (n < t.w → x.getLsbD (t.w - n - 1) = true) ∧
        Gives (.clz d a t) s (WritesG s d (BitVec.ofNat 64 n))) ∧
      (∃ n : Nat, n ≤ t.w ∧ (∀ i, i < n → x.getLsbD i = false) ∧ (n < t.w → x.getLsbD n = true) ∧
        Gives (.ctz d a t) s (WritesG s d (BitVec.ofNat 64 n))) ∧
      Gives (.bswap d a t) s (WritesG s d (Spec.ext t
        (BitVec.ofNat t.w (((List.range (t.w / 8)).map fun i => x.toNat / 256 ^ i % 256 * 256 ^ (t.w / 8 - 1 - i)).sum)))) ∧
      Gives (.abs d a t) s (WritesG s d (Spec.ext t (if t.signed ∧ x.msb then -x else x)))) ∧
    ((t = .i8 ∨ t = .i16 ∨ t = .i32 ∨ t = .n8 ∨ t = .n16 ∨ t = .n32) →
      Gives (.ext d a t) s (WritesG s d (Spec.ext t ((s.srcG a).setWidth t.w)))) ∧
    Gives (.sel d a b c) s (WritesG s d (if s.srcG a ≠ 0 then s.srcG b else s.srcG c)) ∧ Gives (.pcnt 0 a) s (WritesG s 0 0)

/-- R70, R71: what an encoding denotes. R76 to R78, with R81: addition, multiplication, fused multiply-add, division and square root give
their exact value rounded once, with NX, UF, OF or CSAT as those rules say; R86: the sign of an exact zero sum is that of its terms, else
negative only in rdn. R81: the invalid operations give the default NaN with NV, and a finite value divided by zero a signed infinity with
DZ; minimum and maximum put −0 before +0. R82, R79: a NaN result is the first NaN operand, quiet, with NV where one signals. R79, R80: the
conversions, with their saturations. That 0 × infinity beside a NaN sets NV is how the model reads R81. -/
def Obligations.FloatRounding : Prop :=
  (∀ (t ts : Ty) (md : Rm), t ∈ [Ty.e4m3, .e5m2, .bf16, .f16, .f32, .f64] → ts ∈ [Ty.e4m3, .e5m2, .bf16, .f16, .f32, .f64] →
    let f := t.fmt
    let g := ts.fmt
    let rounds := fun (neg : Bool) (m : Nat) (e : Int) (r : FRes) => Spec.Rounded f md neg (fun n => Spec.cmp m e n (Spec.quarter f)) r
    let sign := fun (neg : Bool) => if neg then 2 ^ (f.eb + f.mb) else 0
    let top := (2 ^ f.eb - 1) * 2 ^ f.mb
    (∀ (neg : Bool) (a : Nat), a < 2 ^ (f.eb + f.mb) →
      let v := f.decode (sign neg + a)
      (a ≤ f.largest → ∃ m e, v = .fin neg m e ∧ Spec.quarter f + 2 ≤ e ∧ m * 2 ^ (e - (Spec.quarter f + 2)).toNat = Spec.mag f a) ∧
        (t ≠ .e4m3 → a = top → v = .inf neg) ∧
        (t ≠ .e4m3 → top < a → v = .nan neg (!(a - top).testBit (f.mb - 1)) (a - top) f.mb) ∧
        (t = .e4m3 → a = 0x7F → v = .nan neg false 7 3)) ∧
      f.largest = (if t = .e4m3 then 0x7E else top - 1) ∧ f.nan = (if t = .e4m3 then 0x7F else top + 2 ^ (f.mb - 1)) ∧
      (∀ neg m e, rounds neg m e (roundTo f md neg m e) ∧ rounds neg m e (convert f md (.fin neg m e))) ∧
      (∀ x : Int, rounds (decide (x < 0)) x.natAbs 0 (intToFloat f md x)) ∧
      (∀ neg, convert f md (.inf neg) =
        if t = .e4m3 then { bits := sign neg + 0x7E, fl := { csat := true } } else { bits := sign neg + top }) ∧
      (∀ neg sig fr, fr < 2 ^ g.mb → convert f md (.nan neg sig fr g.mb) =
        { bits := if t = .e4m3 then sign neg + 0x7F else sign neg + top +
            ((if g.mb ≤ f.mb then fr * 2 ^ (f.mb - g.mb) else fr / 2 ^ (g.mb - f.mb)) ||| 2 ^ (f.mb - 1)), fl := { nv := sig } }) ∧
      ∀ (w : Nat) (signed : Bool), w ∈ [8, 16, 32, 64] →
        let lo : Int := if signed then -(2 ^ (w - 1) : Nat) else 0
        let hi : Int := if signed then (2 ^ (w - 1) : Nat) - 1 else (2 ^ w : Nat) - 1
        let int := fun (x : Int) => (BitVec.ofInt w x).toNat
        (∀ neg sig fr b, floatToInt md w signed (.nan neg sig fr b) = { bits := 0, fl := { nv := true } }) ∧
          (∀ neg, floatToInt md w signed (.inf neg) = { bits := int (if neg then lo else hi), fl := { nv := true } }) ∧
          ∀ neg m e, ∃ k, Spec.cmp m e k 0 ≠ .lt ∧ Spec.cmp m e (k + 1) 0 = .lt ∧
            let exact := Spec.cmp m e k 0 == .eq
            let mid := Spec.cmp m e (2 * k + 1) (-1)
            let up := !exact && (Spec.away md neg || Spec.nearest md && (mid == .gt || mid == .eq && k % 2 == 1))
            let b : Int := if up then k + 1 else k
            let x := if neg then -b else b
            floatToInt md w signed (.fin neg m e) =
              if x < lo then { bits := int lo, fl := { nv := true } } else if hi < x then { bits := int hi, fl := { nv := true } }
              else { bits := int x, fl := { nx := !exact } }) ∧
  ∀ (t : Ty) (md : Rm), t ∈ [Ty.bf16, .f16, .f32, .f64] →
    let f := t.fmt
    let sign := fun (neg : Bool) => if neg then 2 ^ (f.eb + f.mb) else 0
    let top := (2 ^ f.eb - 1) * 2 ^ f.mb
    let inf := fun (neg : Bool) => ({ bits := sign neg + top } : FRes)
    let invalid : FRes := { bits := top + 2 ^ (f.mb - 1), fl := { nv := true } }
    let quiet := fun (neg : Bool) (fr : Nat) (nv : Bool) => ({ bits := sign neg + top + (fr ||| 2 ^ (f.mb - 1)), fl := { nv := nv } } : FRes)
    let exactly := fun (neg : Bool) (c : Nat → Ordering) (r : FRes) => Spec.Rounded f md neg c r
    let at' := fun (m : Nat) (e : Int) (n : Nat) => Spec.cmp m e n (Spec.quarter f)
    let sum := fun (n : Bool) (m : Nat) (e : Int) (n' : Bool) (m' : Nat) (e' : Int) (r : FRes) =>
      let q := min e e'
      let x : Int := (m * 2 ^ (e - q).toNat : Nat)
      let y : Int := (m' * 2 ^ (e' - q).toNat : Nat)
      let z := (if n then -x else x) + if n' then -y else y
      (z ≠ 0 → exactly (decide (z < 0)) (at' z.natAbs q) r) ∧ (z = 0 → r = { bits := sign (if n = n' then n else md == .rdn) })
    (∀ n m e n' m' e', sum n m e n' m' e' (fAdd f md (.fin n m e) (.fin n' m' e')) ∧
      exactly (n != n') (at' (m * m') (e + e')) (fMul f md (.fin n m e) (.fin n' m' e')) ∧
      (m' ≠ 0 → exactly (n != n') (fun i => Spec.cmp m (e - e') (i * m') (Spec.quarter f)) (fDiv f md (.fin n m e) (.fin n' m' e'))) ∧
      (m' = 0 → m ≠ 0 → fDiv f md (.fin n m e) (.fin n' m' e') = { bits := sign (n != n') + top, fl := { dz := true } }) ∧
      (m' = 0 → m = 0 → fDiv f md (.fin n m e) (.fin n' m' e') = invalid) ∧
      (∀ sub c x d, let ps := (n != n') != sub
        sum d c x ps (m * m') (e + e') (fFma f md sub (.fin n m e) (.fin n' m' e') (.fin d c x)))) ∧
      (∀ n m e, (m = 0 → fSqrt f md (.fin n m e) = { bits := sign n }) ∧ (m ≠ 0 → n = true → fSqrt f md (.fin n m e) = invalid) ∧
        (m ≠ 0 → n = false → exactly false (fun i => Spec.cmp m e (i * i) (2 * Spec.quarter f)) (fSqrt f md (.fin n m e)))) ∧
      (∀ n n' m e,
        let i := FVal.inf n
        let j := FVal.inf n'
        let x := FVal.fin n' m e
        fAdd f md i j = (if n = n' then inf n else invalid) ∧ fAdd f md i x = inf n ∧ fAdd f md x i = inf n ∧
          fMul f md i j = inf (n != n') ∧ fMul f md i x = (if m = 0 then invalid else inf (n != n')) ∧
          fMul f md x i = (if m = 0 then invalid else inf (n != n')) ∧ fDiv f md i j = invalid ∧ fDiv f md i x = inf (n != n') ∧
          fDiv f md x i = { bits := sign (n != n') } ∧ fSqrt f md i = (if n then invalid else inf n) ∧
          ∀ sub k c y,
            let d := FVal.fin k c y
            fFma f md sub x d i = inf n ∧
              fFma f md sub i x d = (if m = 0 then invalid else inf ((n != n') != sub)) ∧
              fFma f md sub x i d = (if m = 0 then invalid else inf ((n != n') != sub)) ∧
              fFma f md sub i x (.inf k) = (if m = 0 ∨ k ≠ ((n != n') != sub) then invalid else inf k) ∧
              fFma f md sub i j d = inf ((n != n') != sub)) ∧
      (∀ n s fr (a b : FVal), fr < 2 ^ f.mb → a.isNan = false →
        let q := FVal.nan n s fr f.mb
        let r := quiet n fr (s || b.isSig)
        fAdd f md q b = r ∧ fMul f md q b = r ∧ fDiv f md q b = r ∧ fMin f false q b = r ∧ fMin f true q b = r ∧ fSqrt f md q = quiet n fr s ∧
          fAdd f md a q = quiet n fr s ∧ fMul f md a q = quiet n fr s ∧ fDiv f md a q = quiet n fr s ∧ fMin f false a q = quiet n fr s ∧
          fMin f true a q = quiet n fr s ∧
          ∀ sub (c : FVal), fFma f md sub q b c = quiet n fr (s || b.isSig || c.isSig) ∧ fFma f md sub a q c = quiet n fr (s || c.isSig) ∧
            (b.isNan = false → fFma f md sub a b q = quiet n fr (s || (match a, b with
              | .inf _, .fin _ m _ => m == 0
              | .fin _ m _, .inf _ => m == 0
              | _, _ => false)))) ∧
      ∀ (n n' : Bool) (a b : Nat), a ≤ top → b ≤ top →
        let x := sign n + a
        let y := sign n' + b
        let key := fun (n : Bool) (a : Nat) => if n then -(a : Int) else a
        let less := key n a < key n' b ∨ key n a = key n' b ∧ n = true ∧ n' = false
        fLt (f.decode x) (f.decode y) = decide (key n a < key n' b) ∧ fEq (f.decode x) (f.decode y) = decide (key n a = key n' b) ∧
          fMin f false (f.decode x) (f.decode y) = { bits := if less then x else y } ∧
          fMin f true (f.decode x) (f.decode y) = { bits := if less then y else x }

/-- R102: the immediate forms operate on 64 bits, and change nothing but gD; the A-slot nop (R44) changes nothing. R101: bext moves the
bit field of length L from bit pos down to bit 0, and bins puts the low L bits of gA there; L is the len field, or 64 when that is 0, and
pos + L is at most 64. Nothing else changes. That g0 reads as zero and discards a write is the model's reading (log 6). -/
def Obligations.IntegerImmediate : Prop :=
  (∀ (s : State) (d a : R5) (pos len : BitVec 6),
    let n := if len = 0 then 64 else len.toNat
    pos.toNat + n ≤ 64 →
      (∃ v : Word, (∀ i, v.getLsbD i = (decide (i < n) && (s.srcG a).getLsbD (pos.toNat + i))) ∧
        Gives (.bext d a pos len) s (WritesG s d v)) ∧
      (∃ v : Word, (∀ i, v.getLsbD i =
          if pos.toNat ≤ i ∧ i < pos.toNat + n then (s.srcG a).getLsbD (i - pos.toNat) else (s.srcG d).getLsbD i) ∧
        Gives (.bins d a pos len) s (WritesG s d v))) ∧
  ∀ (s : State) (d a : R5) (imm : BitVec 15) (sh : BitVec 6),
    let x := s.srcG a
    let sx : Word := imm.signExtend 64
    let zx : Word := imm.setWidth 64
    let is := fun (i : Instr) (v : Word) => Gives i s (WritesG s d v)
    is (.movi d imm) sx ∧ is (.lui d a imm) (x * 32768 + zx) ∧ is (.addi d a imm) (x + sx) ∧ is (.andi d a imm) (x &&& zx) ∧
      is (.ori d a imm) (x ||| zx) ∧ is (.xori d a imm) (x ^^^ zx) ∧ is (.shli d a sh) (x <<< sh.toNat) ∧
      is (.shri d a sh) (x >>> sh.toNat) ∧ is (.srai d a sh) (x.sshiftRight sh.toNat) ∧ is (.rori d a sh) (x.rotateRight sh.toNat) ∧
      is (.muli d a imm) (x * sx) ∧ is (.slti d a imm) (Spec.bit (x.slt sx)) ∧ is (.sltin d a imm) (Spec.bit (x.ult sx)) ∧
      is (.seqi d a imm) (Spec.bit (x == sx)) ∧ Gives .nopA s (fun t => t = s)

/-- R220: the predicate instructions act on all 64 bits, and change nothing but their destination. -/
def Obligations.Predicates : Prop :=
  ∀ (s : State) (d a b : R5),
    let x := s.srcP a.toNat
    let y := s.srcP b.toNat
    Gives (.pand d a b) s (WritesP s d (x &&& y)) ∧ Gives (.por d a b) s (WritesP s d (x ||| y)) ∧
      Gives (.pxor d a b) s (WritesP s d (x ^^^ y)) ∧ Gives (.pnot d a) s (WritesP s d (~~~x)) ∧
      (d ≠ 0 → Gives (.pcnt d a) s (WritesG s d (BitVec.ofNat 64 ((List.range 64).countP fun i => x.getLsbD i))))

/-! ### Control -/

/-- R104 (with the targets of R51): br and the conditional branches go to (program counter + disp14) mod 8,192 when they are taken, and
otherwise change nothing; a transfer changes no register and no memory. Stated where no Gleaner body binds the context, and R422: in a
body that does, a taken branch to a target outside START to END raises REP_FORM. R104: jr goes to gA when bits 63:13 of gA are zero;
otherwise it raises PC_RANGE with nothing changed but the entry into the handler. -/
def Obligations.Branches : Prop :=
  (∀ (s : State) (a b : R5) (disp : BitVec 14), NoBody s →
    let x := s.srcG a
    let y := s.srcG b
    let target := BitVec.ofInt 13 (s.cur.pc.toNat + disp.toInt)
    let is := fun (i : Instr) (taken : Bool) => Gives i s (fun t => if taken then GoesTo s target true t else t = s)
    is (.br disp) true ∧ is (.beq a b disp) (x == y) ∧ is (.bne a b disp) (x != y) ∧ is (.blt a b disp) (x.slt y) ∧
      is (.bge a b disp) (!x.slt y) ∧ is (.bltn a b disp) (x.ult y) ∧ is (.bgen a b disp) (!x.ult y) ∧
      Gives .nop s (fun t => t = s)) ∧
  (∀ (s : State) (a b : R5) (disp : BitVec 14), MayEnter s s.cur.core s.cur.ctx →
    let g := s.my.gl
    let x := s.srcG a
    let y := s.srcG b
    let target : PC := BitVec.ofInt 13 (s.cur.pc.toNat + disp.toInt)
    let leaves := fun (i : Instr) (taken : Bool) => taken = true → Gives i s (Faults s 0x09 0)
    s.cur.glAt = some g → g.run = true → g.suspended = false → g.own = s.cur.ctx → (s.cur.pc - g.start).toNat ≤ (g.last - g.start).toNat →
    (g.last - g.start).toNat < (target - g.start).toNat →
    leaves (.br disp) true ∧ leaves (.beq a b disp) (x == y) ∧ leaves (.bne a b disp) (x != y) ∧ leaves (.blt a b disp) (x.slt y) ∧
      leaves (.bge a b disp) (!x.slt y) ∧ leaves (.bltn a b disp) (x.ult y) ∧ leaves (.bgen a b disp) (!x.ult y)) ∧
  (∀ (s : State) (a : R5),
    ((s.srcG a).toNat < 8192 → Gives (.jr a) s (GoesTo s (BitVec.ofNat 13 (s.srcG a).toNat) true)) ∧
      (8192 ≤ (s.srcG a).toNat → MayEnter s s.cur.core s.cur.ctx → Gives (.jr a) s (Faults s 0x06 0)))

/-- R107: call and callr write the return address to g31 and to the shadow-stack entry of the context, count SDEP up, and go to their
target; every other register and every other byte of memory is as before. At SDEP 32 they raise CTRL_INTEGRITY of kind 2, and callr with
a target beyond 13 bits raises PC_RANGE. R108: ret, when g31 equals the top shadow-stack entry, counts SDEP down and goes to bits 12:0
of g31; memory and every other register are as before. With SDEP 0 it raises CTRL_INTEGRITY of kind 3, and on a mismatch of kind 1. -/
def Obligations.CallsAndReturns : Prop :=
  (∀ (s : State) (a : R5) (disp : BitVec 14),
    let ret : PC := s.cur.pc + 1
    let entry := 0x3000000000000 + s.cur.core * 0x40000 + 0x1F000 + s.cur.ctx * 0x100 + 8 * s.me.ls.sdep
    let called := fun (target : PC) (t : State) =>
      t.cur = { s.cur with next := target, taken := false } ∧
        { t.me with g := s.me.g, ls := s.me.ls } = s.me ∧ t.me.ls = { s.me.ls with sdep := s.me.ls.sdep + 1 } ∧
        (∀ r, t.me.readG r = if r = 31 then ret.setWidth 64 else s.me.readG r) ∧
        (∀ i, i < 8 → memGet t.mem (entry + i) = BitVec.ofNat 8 (ret.toNat / 256 ^ i)) ∧
        SameMemBut s t entry 8 ∧ SameUnits s t ∧ SameButCtx s t s.cur.core s.cur.ctx
    (s.me.ls.sdep ≠ 32 → Gives (.call disp) s (called (BitVec.ofInt 13 (s.cur.pc.toNat + disp.toInt)))) ∧
      (s.me.ls.sdep ≠ 32 → (s.srcG a).toNat < 8192 → Gives (.callr a) s (called (BitVec.ofNat 13 (s.srcG a).toNat))) ∧
      (MayEnter s s.cur.core s.cur.ctx → s.me.ls.sdep = 32 → Gives (.call disp) s (Faults s 0x07 2)) ∧
      (MayEnter s s.cur.core s.cur.ctx → s.me.ls.sdep = 32 → (s.srcG a).toNat < 8192 → Gives (.callr a) s (Faults s 0x07 2)) ∧
      (MayEnter s s.cur.core s.cur.ctx → 8192 ≤ (s.srcG a).toNat → Gives (.callr a) s (Faults s 0x06 0))) ∧
  (∀ (s : State),
    let top := s.readN (0x3000000000000 + s.cur.core * 0x40000 + 0x1F000 + s.cur.ctx * 0x100 + 8 * (s.me.ls.sdep - 1)) 8
    (s.me.ls.sdep ≠ 0 → (s.srcG 31).toNat = top → Gives .ret s fun t =>
      t.cur = { s.cur with next := BitVec.ofNat 13 top, taken := false } ∧
        t.me = { s.me with ls := { s.me.ls with sdep := s.me.ls.sdep - 1 } } ∧ SameMem s t ∧ SameUnits s t ∧
        SameButCtx s t s.cur.core s.cur.ctx) ∧
      (MayEnter s s.cur.core s.cur.ctx → s.me.ls.sdep = 0 → Gives .ret s (Faults s 0x07 3)) ∧
      (MayEnter s s.cur.core s.cur.ctx → s.me.ls.sdep ≠ 0 → (s.srcG 31).toNat ≠ top → Gives .ret s (Faults s 0x07 1)))

/-- R111: loop and rep, with no loop active, begin a loop of n iterations of the len bundles that follow, or pass over the body when n
is 0; only LC and the loop state change. With a loop active they raise LOOP_NEST. -/
def Obligations.LoopBegin : Prop :=
  ∀ (s : State) (a : R5) (win : BitVec 4) (len : BitVec 7),
    let n := s.srcG a
    let begun := fun (rep : Bool) (w : Nat) (t : State) =>
      OnlyMe s t ∧
        t.me = { s.me with lc := n, ls := { s.me.ls with start := s.cur.pc + 1, len := len.toNat, ldep := s.me.ls.sdep, act := true,
                                                         rep := rep, win := w, rot := 0 } }
    (s.me.ls.act = false → n ≠ 0 →
      Gives (.loop a len) s (begun false 0) ∧ Gives (.rep a win len) s (begun true win.toNat)) ∧
    (s.me.ls.act = false → n = 0 →
      Gives (.loop a len) s (GoesTo s (s.cur.pc + 1 + BitVec.ofNat 13 len.toNat) false) ∧
        Gives (.rep a win len) s (GoesTo s (s.cur.pc + 1 + BitVec.ofNat 13 len.toNat) false)) ∧
    (s.me.ls.act = true → MayEnter s s.cur.core s.cur.ctx →
      Gives (.loop a len) s (Faults s 0x08 0) ∧ Gives (.rep a win len) s (Faults s 0x08 0))

/-- R112: the end-of-body check of a context at its program counter. Outside an active loop of the same depth it only sets the program
counter; a taken transfer out of the body ends the loop; at the last bundle it counts LC down and goes back to START, turning the
rotation of a repeat, or ends the loop. R114: a body bundle of a repeat whose C slot holds one of the opcodes listed does not issue and
raises REP_FORM. R115: any other lone bundle of a repeat runs with its registers renamed in their windows, and predicates, rings and
implicit registers as they are. R116: a context issues the words that its loop buffer has captured; where the store has changed since, the
old or the new; and the buffer is taken by a loop that begins while it is free, captures a body bundle, and is released by a loop that is no
longer active. -/
def Obligations.EndOfBody : Prop :=
  (∀ (s : State) (w0 : Nat) (i : Instr), (privForm i = true → s.me.sup = true) →
    let k := s.cur.core
    let c := s.cur.ctx
    let l := s.me.ls
    let op := w0 / 2 ^ 24 % 128
    let body := l.act = true ∧ l.rep = true ∧ (s.cur.pc - l.start).toNat < l.len
    let barred := 0x01 ≤ op ∧ op ≤ 0x16 ∨ 0x19 ≤ op ∧ op ≤ 0x1F ∨ op = 0x4C
    let win := fun (lo n : Nat) (r : R5) =>
      if l.act ∧ l.rep ∧ l.win ≠ 0 ∧ lo ≤ r.toNat ∧ r.toNat < lo + n then BitVec.ofNat 5 (lo + (r.toNat - lo + l.rot) % n) else r
    let G := win 16 l.win
    let V := win 8 (min l.win 8)
    let runs := fun (j : Instr) => ∀ t, exec j s = .next t → t.cur.out ≠ .stall → issueBundle k c w0 ⟨i, none⟩ s = .next (finish k c j t)
    (body → barred → MayEnter s k c → ∀ o : Option Instr,
      (∀ d x b n hb ha ss rm, o ≠ some (.twalk d x b n hb ha ss rm) ∧ o ≠ some (.twres d x b n hb ha ss rm)) →
      ∃ t, issueBundle k c w0 ⟨i, o⟩ s = .next t ∧ Faults s 0x09 0 t) ∧
      (l.act = true → l.rep = true → ¬ barred → (op ≤ 0x54 ∨ 0x60 ≤ op ∧ op ≤ 0x6E) → NoBody s → s.my.ops = [] → s.my.vq = [] →
        (∀ (d a : R5) (imm : BitVec 14), (i = .std d a imm → runs (.std (G d) (G a) imm)) ∧ (i = .ldv d a imm → runs (.ldv (V d) (G a) imm))) ∧
        (∀ (d a b : R5) (o : MemOrd) (sc : Scope) (ty : Ty), i = .acas d a b o sc ty → runs (.acas (G d) (G a) (G b) o sc ty)) ∧
        (∀ (g : R5) (sys : BitVec 12), (i = .mfs g sys → runs (.mfs (G g) sys)) ∧ (i = .mts g sys → runs (.mts (G g) sys))) ∧
        ∀ (a : R5) (n : BitVec 7), i = .sacq n → runs (.sacq n) ∧ (i = .bell a n → runs (.bell (G a) n)))) ∧
  (∀ (l : Ls) (d a b : R5) (pg n : BitVec 3) (t : Ty) (rm : Rm) (row : BitVec 4) (hb ha pb : Bool),
    let win := fun (lo n : Nat) (r : R5) =>
      if l.act ∧ l.rep ∧ l.win ≠ 0 ∧ lo ≤ r.toNat ∧ r.toNat < lo + n then BitVec.ofNat 5 (lo + (r.toNat - lo + l.rot) % n) else r
    let G := win 16 l.win
    let V := win 8 (min l.win 8)
    let is := fun (i j : Instr) => i.rename l.renaming = j
    is (.add d a b t) (.add (G d) (G a) (G b) t) ∧ is (.vfma d a b pg t rm) (.vfma (V d) (V a) (V b) pg t rm) ∧
      is (.vextg d a b t) (.vextg (G d) (V a) (G b) t) ∧ is (.vgat d a b pg t) (.vgat (V d) (G a) (V b) pg t) ∧
      is (.aget d a row) (.aget (V d) (V a) row) ∧ is (.aput d a row) (.aput (V d) (V a) row) ∧
      is (.mma d a b n hb ha pb rm) (.mma (V d) a (if pb then b else G b) n hb ha pb rm) ∧ is (.pand d a b) (.pand d a b)) ∧
  (∀ (s : State) (k c : Nat) (pc start : PC) (l : List (Nat × Nat)) (w : Nat × Nat),
    let a := istoreBase k + 8 * pc.toNat
    let stored := (s.readN a 4, s.readN (a + 4) 4)
    let n := (pc - start).toNat
    let got := (fetchWords s k c pc).1
    let buf := fun (t : State) => (t.core k).loopBuf
    ((s.core k).loopBuf = none → got = stored) ∧
      (∀ o, (s.core k).loopBuf = some (o, start, l) →
        (o ≠ c → got = stored) ∧ (l[n]? = some w → o = c → got = w ∨ got = stored) ∧ (l[n]? = none → got = stored) ∧
          (o = c → n = l.length → n < (s.ctx k c).ls.len → n < 64 → buf (capture s k c pc w) = some (c, start, l ++ [w])) ∧
          ((s.ctx k o).ls.act = false → buf (loopUpkeep s k c false) = none) ∧
          ((s.ctx k o).ls.act = true → ∀ b, buf (loopUpkeep s k c b) = some (o, start, l))) ∧
      ((s.core k).loopBuf = none → (s.ctx k c).ls.act = true → buf (loopUpkeep s k c true) = some (c, (s.ctx k c).ls.start, []))) ∧
  ∀ (s : State) (k c : Nat) (next : PC) (taken : Bool),
    let x := s.ctx k c
    let l := x.ls
    let e : PC := l.start + BitVec.ofNat 13 l.len - 1
    let t := s.leave k c next taken
    let y := t.ctx k c
    let inLoop := l.act = true ∧ l.sdep = l.ldep
    let leaves := taken = true ∧ l.len ≤ (next - l.start).toNat
    SameMem s t ∧ SameUnits s t ∧ SameButCtx s t k c ∧
      (¬ inLoop → y = { x with pc := next }) ∧
      (inLoop → leaves → y = { x with pc := next, ls := { l with act := false, rep := false } }) ∧
      (inLoop → ¬ leaves → (x.pc ≠ e ∨ next ≠ e + 1) → y = { x with pc := next }) ∧
      (inLoop → ¬ leaves → x.pc = e → next = e + 1 → 1 < x.lc.toNat →
        y = { x with pc := l.start, lc := x.lc - 1,
                     ls := { l with rot := if l.rep = true ∧ l.win ≠ 0 then (l.rot + 1) % l.win else l.rot } }) ∧
      (inLoop → ¬ leaves → x.pc = e → next = e + 1 → x.lc.toNat ≤ 1 →
        y = { x with pc := next, lc := 0, ls := { l with act := false, rep := false } })

/-- R25, R117: start makes a free helper ready at its target, with g1 the value of gA, every other register, predicate and vector
register zero, and lc, ls and SDEP zero, at the privilege of the control context. The memory accesses of the control context before it
are ordered first (R26): stated where none is outstanding. A helper's start raises HELPER_ROLE, and a live helper's HELPER_LIVE. -/
def Obligations.HelperStart : Prop :=
  ∀ (s : State) (h : BitVec 4) (a : R5) (target : BitVec 13),
    (s.cur.ctx = 0 → (s.ctx s.cur.core h.toNat).run = .free → Quiet s → NoQueues s →
      Gives (.start h a target) s fun t =>
        let y := t.ctx s.cur.core h.toNat
        y.run = .ready ∧ y.pc = target ∧ y.sup = s.me.sup ∧ (∀ r, y.readG r = if r = 1 then s.srcG a else 0) ∧
          (∀ r, y.readP r = 0) ∧ (∀ r, y.readV r = 0) ∧ y.lc = 0 ∧ y.ls = {} ∧
          SameMem s t ∧ SameUnits s t ∧ SameButCtx s t s.cur.core h.toNat ∧ t.cur = s.cur) ∧
    (s.cur.ctx ≠ 0 → MayEnter s s.cur.core s.cur.ctx → Gives (.start h a target) s (Faults s 0x0B 0)) ∧
    (s.cur.ctx = 0 → (s.ctx s.cur.core h.toNat).run ≠ .free → MayEnter s s.cur.core s.cur.ctx →
      Gives (.start h a target) s (Faults s 0x0A 0))

/-- R118 to R122: join waits while a named helper is live and otherwise has no effect; hend with nothing outstanding frees its helper;
yield changes no architectural state (only whom R23 passes over); wfi waits while no interrupt is pending; tend takes the value of gA
and waits for the retirement. -/
def Obligations.Waiting : Prop :=
  ∀ (s : State) (mask : BitVec 10) (a : R5),
    let live := ∃ h, 1 ≤ h ∧ h ≤ 10 ∧ mask.getLsbD (h - 1) = true ∧ (s.ctx s.cur.core h).run ≠ .free
    (s.cur.ctx = 0 → live → Gives (.join mask) s (BlocksOn s (.join mask.toNat))) ∧
      (s.cur.ctx = 0 → ¬ live → Gives (.join mask) s (fun t => t = s)) ∧
      (s.cur.ctx ≠ 0 → Quiet s → NoneBlocked s s.cur.core → Gives .hend s fun t =>
        t.me.run = .free ∧ t.me.lc = 0 ∧ t.me.ls = {} ∧ (∀ d, d ≠ s.cur.ctx → t.ctx s.cur.core d = s.ctx s.cur.core d) ∧
          SameOtherCores s t s.cur.core ∧ SameMem s t ∧ SameUnits s t) ∧
      Gives .yield s (fun t => OnlyMe s t ∧ { t.me with yieldFor := s.me.yieldFor, yieldStay := s.me.yieldStay } = s.me) ∧
      (s.me.sup = true → s.my.irq = [] → Gives .wfi s (BlocksOn s .wfi)) ∧
      (s.me.sup = true → s.my.irq ≠ [] → Gives .wfi s (fun t => t = s)) ∧
      (s.cur.ctx = 0 → Gives (.tend a) s fun t =>
        t.me = { s.me with exit := s.srcG a, tendStep := max 1 s.me.tendStep, since := some s.now, run := .blocked .tend } ∧ SameMem s t ∧ SameUnits s t ∧
          SameButCtx s t s.cur.core s.cur.ctx)

/-! ### Exceptions and privilege -/

/-- R57: at user privilege eret, tlbinv, save, save.res, rest, curf, wfi, and mts to WAYMASK, TRAPVEC, TRAPCAUSE, TRAPPC or OPLOG raise
PRIV, with nothing changed but the entry into the handler. -/
def Obligations.Privilege : Prop :=
  ∀ (s : State) (d a b : R5) (n : BitVec 7) (sc : Scope) (sys : BitVec 12), s.me.sup = false → MayEnter s s.cur.core s.cur.ctx →
    let priv := fun (i : Instr) => Gives i s (Faults s 0x02 0)
    priv .eret ∧ priv (.tlbinv d a n sc) ∧ priv (.save d a b) ∧ priv (.saveRes d a b) ∧ priv (.rest d a b) ∧ priv (.curf d a b) ∧
      priv .wfi ∧ (sys.toNat ∈ [0x020, 0x030, 0x031, 0x032, 0x033] → priv (.mts a sys))

/-- R124, R390: the bundle of a trap instruction leaves, and then its context enters the handler with cause USER_TRAP and the code; the
resume address is where it would have gone on. R390, R391: a context that is ready, runs no handler and has one report takes it as a
trap, and the report is gone. R395: context 0 takes the lowest pending interrupt while IE and EN are 1 and INH is 0, and that source is
no longer pending. R120: a context that a fault of `tend` has stopped takes only reports of its steps or of the entries they wait for, and
no interrupt; which those are is the model's reading (log 17). -/
def Obligations.TrapEntries : Prop :=
  (∀ (s : State) (code : BitVec 16), MayEnter s s.cur.core s.cur.ctx →
    Gives (.trap code) s fun t =>
      Enters (s.leave s.cur.core s.cur.ctx s.cur.next s.cur.taken) s.cur.core s.cur.ctx 0x0D (code.setWidth 32) false t) ∧
  ((∀ (s : State) (k c : Nat) (r : Report), s.coreStill k = false → (s.ctx k c).run = .ready → (s.ctx k c).handler = [] →
    (s.ctx k c).reports = [r] → ((s.ctx k c).tendStep = 0 ∨ r.ofTend = true ∨ r.entry.isSome = true) → MayEnter s k c →
    Gives (.trapEntry k c) s fun t =>
      Enters (s.updCtx k c fun x => { x with reports := [] }) k c r.cause.code r.info true t ∧ (t.ctx k c).reports = [] ∧
        (t.ctx k c).cause.logix = r.entry.getD 0) ∧
  (∀ (s : State) (k n : Nat), s.coreStill k = false → (s.ctx k 0).run = .ready → (s.ctx k 0).tendStep = 0 → NoneBlocked s k →
    MayEnter s k 0 → (s.core k).trapvec.getLsbD 16 = true → n ∈ (s.core k).irq → (∀ m ∈ (s.core k).irq, n ≤ m) →
    Gives (.interrupt k) s fun t =>
      Enters (s.updCore k fun x => { x with irq := x.irq.filter fun m => m != n }) k 0 0x48 (BitVec.ofNat 32 n) false t ∧
        n ∉ (t.core k).irq ∧ ∀ m, m ≠ n → (m ∈ (t.core k).irq ↔ m ∈ (s.core k).irq)))

/-- R393: with TRAPVEC.EN 0 a trap writes TRAPCAUSE, TRAPPC, HELD and ACT, leaves the privilege and the program counter, and halts the
context. R438: the record of such a trap enters the trap queue of the partition, at its tail in device memory, or is dropped and counted
where the queue is full or has no entries (stated where event 3 is pending already). R22, R393, R399: system software resumes a context
halted by delegation with the effect of eret: with no faulted entry and no report it is ready at TRAPPC, with the privilege and the loop that the trap found, and its registers as they were, or as system software
has written them where no context of the core goes on. That system software acts by a move of the agenda, which carries what it writes,
is the model's own (log 1, 18, 43); that an edit of g0 is discarded is the model's choice (log 6). -/
def Obligations.TrapDelegated : Prop :=
  (∀ (s : State) (k c : Nat) (u : TrapInfo), (s.core k).trapvec.getLsbD 17 = false → (s.ctx k c).cause.inh = false →
    let x := s.ctx k c
    let y := (s.takeTrap k c u).ctx k c
    y.run = .delegated ∧ y.sup = x.sup ∧ y.pc = x.pc ∧ y.trapPc = x.pc ∧ y.ls = { x.ls with held := x.ls.act, act := false } ∧
      y.cause = { info := u.info, logix := u.logix, sel := 0, inh := true, skip := false, ppriv := x.sup, after := u.after,
                  code := u.cause.code } ∧
      y.g = x.g ∧ y.p = x.p ∧ y.v = x.v ∧ y.cp = x.cp ∧ y.lc = x.lc) ∧
  (∀ (s : State) (k c : Nat) (u : TrapInfo), (s.core k).trapvec.getLsbD 17 = false → (s.ctx k c).cause.inh = false →
    (s.io.ev.get {} 3).pend = true → k < 3200 → c ≤ 10 → Reachable s →
    let p := if 3072 ≤ k then 0 else (s.cluster (clusterOf k)).part
    let q := s.io.trapq.get {} p
    let a := q.base.toNat + 32 * q.tail
    let t := s.takeTrap k c u
    let full := q.size = 0 ∨ (q.tail + 1) % q.size = q.head
    (¬ full → 0x10000000000 ≤ a → a + 32 ≤ 0x16000000000 →
      t.io.trapq.get {} p = { q with tail := (q.tail + 1) % q.size } ∧ SameMemBut s t a 32 ∧ t.readN a 8 = (t.ctx k c).cause.word ∧
        t.readN (a + 8) 8 = (s.ctx k c).pc.toNat + c * 2 ^ 16 + lcoreOf k * 2 ^ 20 + tileOf k * 2 ^ 23 ∧
        t.readN (a + 16) 8 = s.tower.toNat ∧ t.readN (a + 24) 8 = 0) ∧
      (full → t.io.trapq.get {} p = { q with drop := min 65535 (q.drop + 1) } ∧ SameMem s t)) ∧
  ∀ (s : State) (k c : Nat) (edits : List Edit) (rest : List Move), s.agenda = .resume k c edits :: rest → s.coreStill k = false →
    (s.ctx k c).run = .delegated → (s.core k).ops = [] → (s.core k).vq = [] → (s.core k).mq = [] → (s.core k).cq = [] →
    (s.core k).xq = [] → (s.ctx k c).reports = [] →
    let x := s.ctx k c
    let resumed := fun (pc : PC) (t : State) =>
      let y := t.ctx k c
      y.run = .ready ∧ y.pc = pc ∧ y.sup = x.cause.ppriv ∧ y.ls = { x.ls with act := x.ls.held, held := false } ∧
        y.cause = { x.cause with inh := false } ∧ y.p = x.p ∧ y.v = x.v ∧ y.reports = [] ∧
        (∀ d, d ≠ c → t.ctx k d = s.ctx k d) ∧ SameOtherCores s t k ∧ SameMem s t
    (edits = [] → Steps s fun t => resumed x.trapPc t ∧ (t.ctx k c).g = x.g) ∧
      (∀ (r : R5) (v : Word) (pc : PC), edits = [.g r.toNat v, .sys 0x032 (pc.setWidth 64)] → liveUnhalted (s.core k) = false →
        Steps s fun t => resumed pc t ∧ ∀ n, (t.ctx k c).readG n = if n = r.toNat ∧ n ≠ 0 then v else x.readG n)

/-- R113, R399: at supervisor privilege, with no faulted entry and no report of the context, eret moves HELD into ACT, restores the
privilege from PPRIV and the program counter from TRAPPC, clears INH, and leaves every register and every byte of memory as it is, and all
that its core holds: but that the engine queues which the context's faults held go on, and a Gleaner body of the context is checked again
(R430). -/
def Obligations.EretReturns : Prop :=
  ∀ (s : State), s.me.sup = true → s.my.ops = [] → NoQueues s → s.me.reports = [] →
    Gives .eret s fun t =>
      t.me = { s.me with ls := { s.me.ls with act := s.me.ls.held, held := false }, sup := s.me.cause.ppriv, pc := s.me.trapPc,
                         cause := { s.me.cause with inh := false }, handler := s.me.handler.tail } ∧
        (∀ d, d ≠ s.cur.ctx → t.ctx s.cur.core d = s.ctx s.cur.core d) ∧
        { t.my with ctxs := s.my.ctxs, gl := s.my.gl, holds := s.my.holds } = s.my ∧
        t.my.gl = (if s.my.gl.own = s.cur.ctx then { s.my.gl with suspended := false } else s.my.gl) ∧
        t.my.holds = s.my.holds.filter (fun h => h.2 != s.cur.ctx) ∧ SameOtherCores s t s.cur.core ∧ SameMem s t ∧ SameUnits s t

/-! ### System registers -/

/-- R125, R59: mfs writes the value of the register to gD and changes nothing else: IDENT (R18), DOMAIN (R36), PHASE (R318), MSTAT (R92,
R260), MWEIGHT (R239), VSHARE (R210), WAYMASK and WAYLIM (R150, R151), GLSTAT (R416), and those of the Mill, the copies, the loop and the
traps; OPLOG gives FADDR of the memory entry that TRAPCAUSE selects, and zero for one that is not taken (R389, R397). mts writes, at either
privilege, MSTAT, DOMAIN (R37), PHASE, MWEIGHT, VSHARE, WAYLIM (R153), the formats and scales (R249), the copy registers, a dimensioned one
in the slot that DIM names (R297 to R302), LC and LS (R110), and at supervisor privilege WAYMASK and the trap registers; reserved and
read-only fields keep what they read, and nothing else changes. That g0 discards a write is the model's reading (log 6). -/
def Obligations.SystemRegisters : Prop :=
  (∀ (s : State) (d : R5),
    let x := s.me
    let y := s.my
    let k := s.cur.core
    let cl := k / 8
    let C := s.cluster cl
    let b := fun (v : Bool) (n : Nat) => v.toNat * 2 ^ n
    let value := fun (n : Nat) (v : Word) => Gives (.mfs d (BitVec.ofNat 12 n)) s (WritesG s d v)
    let reads := fun (n v : Nat) => value n (BitVec.ofNat 64 v)
    let weights := fun (w : Tab Nat) => ((List.range 8).map fun j => w.get 1 j * 2 ^ (4 * j)).sum
    value 0x001 s.tower ∧ value 0x011 y.fmta ∧ value 0x012 y.fmtb ∧ value 0x013 y.scla ∧ value 0x014 y.sclb ∧ value 0x030 y.trapvec ∧
      reads 0x010 (y.mstat.rm + b y.mstat.fl.nx 4 + b y.mstat.fl.uf 5 + b y.mstat.fl.ovf 6 + b y.mstat.fl.dz 7 + b y.mstat.fl.nv 8 +
        b y.mstat.fl.isat 9 + b y.mstat.fl.csat 11 + b y.mstat.fl.nfskip 12 +
        ((List.range 16).map fun t => if y.mstat.pmask.contains t then 2 ^ (16 + t) else 0).sum + b y.mstat.poison 32 +
        b y.mstat.abort 33 + b (Tab.find y.holds 1).isSome 34 + y.mstat.kdone * 2 ^ 40) ∧
      (k < 3072 →
        reads 0x000 (s.cur.ctx + k % 8 * 2 ^ 4 + cl * 2 ^ 8 + (cl % 96 / 16 + 1) * 2 ^ 17 + cl % 16 * 2 ^ 20 + cl / 96 * 2 ^ 24) ∧
          reads 0x002 (C.domain.id.get cl 0 + C.domain.id.get cl 1 * 2 ^ 12 + C.domain.id.get cl 2 * 2 ^ 24 +
            C.domain.id.get cl 3 * 2 ^ 36 + C.domain.mode % 16 * 2 ^ 48 + C.domain.level * 2 ^ 53 + b C.domainPend.isSome 56 + C.part * 2 ^ 57) ∧
          reads 0x003 (b C.phase.xp 0 + b C.phase.xcol 1 + b C.phase.terr 2 + b C.phase.gerr 3 + C.phase.tbl * 2 ^ 6 + C.phase.nent * 2 ^ 24 +
            (if C.phase.xp then C.phase.cur else 0) * 2 ^ 32) ∧
          reads 0x015 (weights C.mweight) ∧ reads 0x016 (weights C.vshare) ∧
          reads 0x020 ((2 ^ 16 - 2 ^ (16 - C.ways.s)) + C.ways.tgt * 2 ^ 16 + b C.ways.change.isSome 21) ∧
          reads 0x021 (C.ways.min + C.ways.max * 2 ^ 8 + C.ways.ivl * 2 ^ 16 + b C.ways.auto 24)) ∧
      (∀ g, k = 3072 + g → g < 128 →
        reads 0x000 (s.cur.ctx + 2 ^ 7 + g * 2 ^ 8 + (if g % 32 < 16 then 0 else 7) * 2 ^ 17 + g % 16 * 2 ^ 20 + g / 32 * 2 ^ 24)) ∧
      reads 0x040 (y.gl.idx + b y.gl.foot 32 + b y.gl.decl 33 + b y.gl.run 34 + y.gl.own * 2 ^ 36) ∧
      reads 0x031 (x.cause.code % 256 + b x.cause.after 8 + b x.cause.ppriv 9 + b x.cause.skip 10 + b x.cause.inh 11 +
        x.cause.sel % 16 * 2 ^ 12 + x.cause.logix % 128 * 2 ^ 16 + x.cause.info.toNat * 2 ^ 32) ∧
      value 0x032 (x.trapPc.setWidth 64) ∧
      (x.cause.logix < 64 → (Tab.find y.ops x.cause.logix = none → value 0x033 0) ∧
        ∀ o, Tab.find y.ops x.cause.logix = some o → x.cause.sel = 1 → value 0x033 o.faddr) ∧
      value 0x050 x.cp.src ∧ value 0x051 x.cp.dst ∧
      value 0x052 (x.cp.shapeSlot x.cp.shapeDim + BitVec.ofNat 64 (x.cp.shapeDim * 2 ^ 62)) ∧
      value 0x053 (x.cp.strsSlot x.cp.strsDim + BitVec.ofNat 64 (x.cp.strsDim * 2 ^ 62)) ∧
      value 0x054 (x.cp.strdSlot x.cp.strdDim + BitVec.ofNat 64 (x.cp.strdDim * 2 ^ 62)) ∧ value 0x055 x.cp.fmt ∧ value 0x056 x.cp.pad ∧
      value 0x057 x.cp.sem ∧ value 0x060 x.lc ∧
      reads 0x061 (x.ls.start.toNat + x.ls.len * 2 ^ 13 + b x.ls.act 20 + b x.ls.rep 21 + b x.ls.held 22 + x.ls.win * 2 ^ 28 +
        x.ls.rot * 2 ^ 32 + x.ls.ldep * 2 ^ 36 + x.ls.sdep * 2 ^ 42)) ∧
  (∀ (s : State) (a : R5),
    let v := s.srcG a
    let f := fun (hi lo : Nat) => v.toNat / 2 ^ lo % 2 ^ (hi + 1 - lo)
    let writes := fun (n : Nat) (P : State → Prop) => Gives (.mts a (BitVec.ofNat 12 n)) s P
    let core := fun (n : Nat) (y : Core) => writes n fun t => OnlyCore s t s.cur.core ∧ t.my = y
    let me := fun (n : Nat) (y : Ctx) => writes n fun t => OnlyMe s t ∧ t.me = y
    let copy := fun (n : Nat) (r : CopyRegs) => me n { s.me with cp := r }
    let r := s.me.cp
    let F := s.my.mstat.fl
    let cl := s.cur.core / 8
    let C := s.cluster cl
    let others := fun (t : State) => { t with clusters := s.clusters } = s ∧ ∀ j, j ≠ cl → t.cluster j = s.cluster j
    let weights := fun (w : Tab Nat) => ∀ j, j < 8 → w.get 1 j = max 1 (v.toNat / 2 ^ (4 * j) % 16)
    let ways := fun (n tgt : Nat) (W : Ways) => writes n fun t => others t ∧
      { t.cluster cl with ways := C.ways } = C ∧
        let y := (t.cluster cl).ways
        { y with change := C.ways.change, waits := C.ways.waits } = { W with tgt := tgt } ∧
          y.change = if C.ways.change.isSome ∨ tgt = C.ways.s then C.ways.change else some tgt
    let domain := Domain.mk (min 4 (f 55 53)) (f 51 48) [(0, f 11 0), (1, f 23 12), (2, f 35 24), (3, f 47 36)]
    let lo := min 16 (f 4 0)
    let hi := max lo (min 16 (f 12 8))
    core 0x011 { s.my with fmta := BitVec.ofNat 64 (f 3 0 + f 37 16 * 2 ^ 16) } ∧
      core 0x012 { s.my with fmtb := BitVec.ofNat 64 (f 3 0 + f 37 16 * 2 ^ 16) } ∧
      core 0x013 { s.my with scla := BitVec.ofNat 64 (f 21 0 + f 40 24 * 2 ^ 24) } ∧
      core 0x014 { s.my with sclb := BitVec.ofNat 64 (f 21 0 + f 40 24 * 2 ^ 24) } ∧
      core 0x010 { s.my with mstat := { s.my.mstat with
        rm := if f 2 0 = 0 ∨ 4 < f 2 0 then 1 else f 2 0
        fl := Flags.mk (F.nx && !v.getLsbD 4) (F.uf && !v.getLsbD 5) (F.ovf && !v.getLsbD 6) (F.dz && !v.getLsbD 7)
          (F.nv && !v.getLsbD 8) (F.isat && !v.getLsbD 9) (F.csat && !v.getLsbD 11) (F.nfskip && !v.getLsbD 12)
        poison := s.my.mstat.poison && !v.getLsbD 32, abort := s.my.mstat.abort && !v.getLsbD 33 } } ∧
      (C.domain.mode.testBit C.domain.level = false → writes 0x002 fun t => SameMem s t ∧ t.cores = s.cores ∧ t.cur = s.cur ∧
        (t.cluster cl).domain = domain ∧ (t.cluster cl).domainPend = none) ∧
      (C.domain.mode.testBit C.domain.level = true → writes 0x002 fun t => others t ∧ t.cluster cl = { C with domainPend := some domain }) ∧
      writes 0x003 (fun t => others t ∧ t.cluster cl = { C with phase := { C.phase with
        gerr := C.phase.gerr && !v.getLsbD 3, terr := C.phase.terr && !v.getLsbD 2, xcol := C.phase.xcol && !v.getLsbD 1
        held := if C.phase.xp then some (f 31 24, f 22 6) else C.phase.held, nent := if C.phase.xp then C.phase.nent else f 31 24
        tbl := if C.phase.xp then C.phase.tbl else f 22 6 } }) ∧
      writes 0x015 (fun t => others t ∧ { t.cluster cl with mweight := C.mweight } = C ∧ weights (t.cluster cl).mweight) ∧
      writes 0x016 (fun t => others t ∧ { t.cluster cl with vshare := C.vshare } = C ∧ weights (t.cluster cl).vshare) ∧
      ways 0x021 (min hi (max lo C.ways.tgt)) { C.ways with auto := v.getLsbD 24, ivl := min 30 (max 16 (f 20 16)), max := hi, min := lo } ∧
      (s.me.sup = true → ways 0x020 (min C.ways.max (max C.ways.min (f 20 16))) C.ways) ∧
      copy 0x050 { r with src := v } ∧ copy 0x051 { r with dst := v } ∧ copy 0x056 { r with pad := v } ∧
      copy 0x055 { r with fmt := BitVec.ofNat 64 (f 14 0 + f 39 16 * 2 ^ 16) } ∧
      copy 0x057 { r with sem := BitVec.ofNat 64 (f 47 5 * 2 ^ 5 + f 63 57 * 2 ^ 57) } ∧
      copy 0x052 { r with shape := r.shape.put (f 63 62) (BitVec.ofNat 64 (f 61 0)), shapeDim := f 63 62 } ∧
      copy 0x053 { r with strs := r.strs.put (f 63 62) (BitVec.ofNat 64 (f 55 0)), strsDim := f 63 62 } ∧
      copy 0x054 { r with strd := r.strd.put (f 63 62) (BitVec.ofNat 64 (f 55 0)), strdDim := f 63 62 } ∧
      me 0x060 { s.me with lc := v } ∧
      (1 ≤ f 19 13 → f 19 13 ≤ 64 → me 0x061 { s.me with ls :=
        { sdep := s.me.ls.sdep, ldep := min 32 (f 41 36), rot := if f 31 28 = 0 then 0 else f 35 32 % f 31 28, win := f 31 28,
          held := v.getLsbD 22, rep := v.getLsbD 21, act := v.getLsbD 20, len := f 19 13, start := BitVec.ofNat 13 (f 12 0) } }) ∧
      ((f 19 13 = 0 ∨ 64 < f 19 13) → writes 0x061 fun t => OnlyMe s t ∧ { t.me with ls := s.me.ls } = s.me ∧
        t.me.ls.act = false ∧ t.me.ls.held = false) ∧
      (∀ n ∈ [0x000, 0x001, 0x040], writes n fun t => t = s) ∧
      (s.me.sup = true →
        core 0x030 { s.my with trapvec := BitVec.ofNat 64 (f 12 0 + f 16 16 * 2 ^ 16 + f 17 17 * 2 ^ 17) } ∧
          me 0x031 { s.me with cause := { s.me.cause with sel := f 15 12, inh := v.getLsbD 11, skip := v.getLsbD 10, ppriv := v.getLsbD 9 } } ∧
          me 0x032 { s.me with trapPc := BitVec.ofNat 13 (f 12 0) } ∧ writes 0x033 fun t => t = s))

/-! ### Memory: the core's side -/

/-- R161, R162, R163: a plain load from the core's own TCM, through the local alias, gives its destination the bytes there, least
significant first, extended as the form says; nothing else changes. The address is gA plus the immediate, or gA plus gB shifted. Stated
where the core has nothing outstanding and no sector holds an error. That g0 discards a load's value is stated by R162; that it reads as
zero is the model's reading (log 6). -/
def Obligations.LocalLoads : Prop :=
  ∀ (s : State) (d a b : R5) (imm : BitVec 14) (sc : Scope) (sft : BitVec 4), Quiet s → NoBody s → s.poison = [] →
    let forms := fun (ea : Word) (b1 b1n b2 b2n b4 b4n b8 b32 b64 : Instr) =>
      let m := fun n => s.readN (tcmBase s.cur.core + ea.toNat) n
      let gives := fun (n : Nat) (i : Instr) (v : Word) => ea.toNat + n ≤ 0x20000 → Gives i s (WritesG s d v)
      let givesV := fun (n : Nat) (i : Instr) => ea.toNat + n ≤ 0x20000 → Gives i s (WritesV s d (BitVec.ofNat 512 (m n)))
      gives 1 b1 ((BitVec.ofNat 8 (m 1)).signExtend 64) ∧ gives 1 b1n (BitVec.ofNat 64 (m 1)) ∧
        gives 2 b2 ((BitVec.ofNat 16 (m 2)).signExtend 64) ∧ gives 2 b2n (BitVec.ofNat 64 (m 2)) ∧
        gives 4 b4 ((BitVec.ofNat 32 (m 4)).signExtend 64) ∧ gives 4 b4n (BitVec.ofNat 64 (m 4)) ∧
        gives 8 b8 (BitVec.ofNat 64 (m 8)) ∧ givesV 32 b32 ∧ givesV 64 b64
    forms (s.srcG a + imm.signExtend 64) (.ldb d a imm) (.ldbn d a imm) (.ldh d a imm) (.ldhn d a imm) (.ldw d a imm) (.ldwn d a imm)
        (.ldd d a imm) (.ldq d a imm) (.ldv d a imm) ∧
      forms (s.srcG a + s.srcG b <<< sft.toNat) (.ldbx d a b .pl sc sft) (.ldbnx d a b .pl sc sft) (.ldhx d a b .pl sc sft)
        (.ldhnx d a b .pl sc sft) (.ldwx d a b .pl sc sft) (.ldwnx d a b .pl sc sft) (.lddx d a b .pl sc sft) (.ldqx d a b .pl sc sft)
        (.ldvx d a b .pl sc sft)

/-- R106, R142, R162, R163: a store to the core's own TCM outside the shadow stacks enters the write buffer, from which the core's loads
take its bytes; memory and all else is as before. So does an indexed store with a release, which has nothing to wait for here (R146): at a
scope above core it is stated where the caches hold no line. A store of any width that reaches a byte of the shadow stacks through the
local alias raises PROT. Stated where no fault of the context is outstanding (R398). -/
def Obligations.LocalStores : Prop :=
  ∀ (s : State) (d a b : R5) (imm : BitVec 14) (o : MemOrd) (sc : Scope) (sft : BitVec 4), Quiet s → NoBody s → NoQueues s →
    (∀ r ∈ s.my.rings, r.2.guard = false) → (o = .pl ∨ o = .rel) → sc ≠ .res7 →
    let plain := o = .pl ∨ sc = .ctx ∨ sc = .core
    let forms := fun (R : State → Nat → List Byte → State → Prop) (ea : Word) (b1 b2 b4 b8 b32 b64 : Instr) =>
      let g := (s.srcG d).toNat
      let v := (s.me.readV d.toNat).toNat
      let put := fun (n x : Nat) (i : Instr) =>
        (ea.toNat + n ≤ 0x1F000 ∨ 0x1FB00 ≤ ea.toNat ∧ ea.toNat + n ≤ 0x20000 →
            Gives i s (R s (tcmBase s.cur.core + ea.toNat) (toBytes n x))) ∧
          (0x1F000 < ea.toNat + n → ea.toNat < 0x1FB00 → MayEnter s s.cur.core s.cur.ctx → Gives i s (Faults s 0x05 1))
      put 1 g b1 ∧ put 2 g b2 ∧ put 4 g b4 ∧ put 8 g b8 ∧ put 32 v b32 ∧ put 64 v b64
    let indexed := fun (R : State → Nat → List Byte → State → Prop) => forms R (s.srcG a + s.srcG b <<< sft.toNat) (.stbx d a b o sc sft)
      (.sthx d a b o sc sft) (.stwx d a b o sc sft) (.stdx d a b o sc sft) (.stqx d a b o sc sft) (.stvx d a b o sc sft)
    forms Stores (s.srcG a + imm.signExtend 64) (.stb d a imm) (.sth d a imm) (.stw d a imm) (.std d a imm) (.stq d a imm) (.stv d a imm) ∧
      (plain → indexed Stores) ∧ (¬ plain → NoCopies s → indexed StoresReleased)

/-- R147, R163 to R165, R168, R172, R397: an access that the rules allow, of a core with nothing outstanding and empty caches, takes an
entry of the operand log: the remote loads and stores, the atomics at an aligned address, `fwr`, and the loads with an acquire; `frd`
also blocks its context. A misaligned atomic or future operation raises ALIGN instead. R178 to R180, R397: a cache-maintenance
instruction takes an entry of the operand log with its range, and completes later. R317: in a compute phase one other than `pref` whose
range leaves the core's local memory raises PHASE instead. That the lowest free entry is taken is the model's choice (log 10). -/
def Obligations.OperationsEnterLog : Prop :=
  (∀ (s : State) (d a b : R5) (imm : BitVec 14) (o : MemOrd) (sc : Scope) (t : Ty) (sft : BitVec 4) (ov : Bool),
    Quiet s → NoBody s → NoCopies s → NoQueues s → (t = .i32 ∨ t = .i64 ∨ t = .n32 ∨ t = .n64) →
    let ea := s.srcG a + imm.signExtend 64
    let ex := s.srcG a + s.srcG b <<< sft.toNat
    let x := s.srcG a
    let ld := fun (n : Nat) (i : Instr) => Allowed s false ex n → Gives i s (EntersLog s i [s.srcG a, s.srcG b] ex n)
    let at' := fun (i : Instr) (vals : List Word) =>
      (x.toNat % (t.w / 8) = 0 → Allowed s true x (t.w / 8) → Gives i s (EntersLog s i vals x (t.w / 8))) ∧
        (x.toNat % (t.w / 8) ≠ 0 → MayEnter s s.cur.core s.cur.ctx → Gives i s (Faults s 0x03 0))
    (Allowed s false ea 4 → Gives (.rldw d a imm) s (EntersLog s (.rldw d a imm) [x] ea 4)) ∧
      (Allowed s false ea 8 → Gives (.rldd d a imm) s (EntersLog s (.rldd d a imm) [x] ea 8)) ∧
      (Allowed s true ea 4 → Gives (.rstw d a imm) s (EntersLog s (.rstw d a imm) [x, s.srcG d] ea 4)) ∧
      (Allowed s true ea 8 → Gives (.rstd d a imm) s (EntersLog s (.rstd d a imm) [x, s.srcG d] ea 8)) ∧
      ld 1 (.ldbx d a b .acq sc sft) ∧ ld 1 (.ldbnx d a b .acq sc sft) ∧ ld 2 (.ldhx d a b .acq sc sft) ∧
      ld 2 (.ldhnx d a b .acq sc sft) ∧ ld 4 (.ldwx d a b .acq sc sft) ∧ ld 4 (.ldwnx d a b .acq sc sft) ∧
      ld 8 (.lddx d a b .acq sc sft) ∧ ld 32 (.ldqx d a b .acq sc sft) ∧ ld 64 (.ldvx d a b .acq sc sft) ∧
      (∀ i ∈ [Instr.aadd d a b o sc t, .aand d a b o sc t, .aor d a b o sc t, .axor d a b o sc t, .amin d a b o sc t, .amax d a b o sc t,
        .aswp d a b o sc t], at' i [x, s.srcG b]) ∧ at' (.acas d a b o sc t) [x, s.srcG b, s.srcG d] ∧
      (x.toNat % 16 = 0 → Allowed s true x 16 → Gives (.fwr d a ov) s (EntersLog s (.fwr d a ov) [x, s.srcG d] x 16) ∧
        (s.cur.out = .go → Gives (.frd d a) s (fun u => EntersLog s (.frd d a) [x] x 16 u ∧ u.me.run = .blocked (.frd 0)))) ∧
      (x.toNat % 16 ≠ 0 → MayEnter s s.cur.core s.cur.ctx →
        Gives (.fwr d a ov) s (Faults s 0x03 0) ∧ Gives (.frd d a) s (Faults s 0x03 0))) ∧
  (∀ (s : State) (d a b : R5) (sc : Scope), Quiet s → NoBody s →
    let bars := (s.srcG b).toNat ≠ 0 ∧ isGran s.cur.core = false ∧ (s.cluster (clusterOf s.cur.core)).computePhase = true ∧
      rangeLocal s.cur.core (s.srcG a).toNat (s.srcG b).toNat = false
    let enters := fun (i : Instr) => Gives i s (EntersLog s i [s.srcG a, s.srcG b] (s.srcG a) 0)
    let each := fun (i : Instr) => (¬ bars → enters i) ∧ (bars → MayEnter s s.cur.core s.cur.ctx → Gives i s (Faults s 0x16 0))
    each (.cwb a b sc) ∧ each (.cinv a b sc) ∧ each (.cwbi a b sc) ∧ enters (.pref a b sc) ∧ each (.cpin d a b) ∧
      each (.cunpin d a b))

/-- R166: an allowed `fetch` of 32 bytes takes an entry of the fetch table, and changes no register and no memory; it raises ALIGN for
an address that is not a multiple of 32, PAGE for a destination beyond the TCM and PROT for one in the shadow stacks. R166, R313: a
`fetch` whose data is back writes it into the TCM of its core and increments its semaphore, once the earlier loads of its context are
performed (R185); every other byte of memory is as before.
That the lowest free entry is taken is the model's choice (log 10), and so is ALIGN for a misaligned source: R166 raises it where R158
lets the source be misaligned (log 51). -/
def Obligations.Fetch : Prop :=
  (∀ (s : State) (d a : R5) (n : BitVec 7), Quiet s → NoBody s → NoCopies s →
    let src := s.srcG a
    let dst := (s.srcG d).toNat
    let aligned := src.toNat % 32 = 0 ∧ dst % 32 = 0
    let fault := fun (code : Nat) (info : BitVec 32) => MayEnter s s.cur.core s.cur.ctx → Gives (.fetch d a n) s (Faults s code info)
    (aligned → dst ≤ 0x1FFE0 → (dst < 0x1F000 ∨ 0x1FB00 ≤ dst) → Allowed s false src 32 → Gives (.fetch d a n) s fun t =>
      SameMem s t ∧ t.cur = s.cur ∧ t.me = s.me ∧ t.my.ops = [] ∧
        ∃ o, t.my.fetches = [(0, o)] ∧ o.instr = .fetch d a n ∧ o.ctx = s.cur.ctx ∧ o.ea = src ∧ o.prog = dst ∧ o.flt = none) ∧
      (¬ aligned → fault 0x03 0) ∧ (aligned → 0x1FFE0 < dst → fault 0x04 1) ∧ (aligned → 0x1F000 ≤ dst → dst < 0x1FB00 → fault 0x05 1)) ∧
  (∀ (s : State) (k i : Nat) (o : Op) (d a : R5) (n : BitVec 7), s.coreStill k = false → Tab.find (s.core k).fetches i = some o →
    o.instr = .fetch d a n → o.allGot = true → (∀ p ∈ o.parts, p.attrC = false ∧ p.again = false) → NoneBlocked s k →
    (s.core k).loadsPending o.ctx o.stamp = false →
    ((s.core k).sems.get {} n.toNat).count < 65535 →
    Gives (.fetchComplete k i) s fun t =>
      t.read (tcmBase k + o.prog) o.bytes.length = o.bytes ∧ SameMemBut s t (tcmBase k + o.prog) o.bytes.length ∧
        Tab.find (t.core k).fetches i = none ∧
        (t.core k).sems.get {} n.toNat = { (s.core k).sems.get {} n.toNat with count := ((s.core k).sems.get {} n.toNat).count + 1 } ∧
        SameCtxs s t)

/-- R146, R147, R176, R177: with nothing outstanding, `fence.acq` completes, and at the scopes from clu up no line of a writable page
holds a byte in L1 that is not dirty; with no dirty byte in its caches `fence.rel` completes, and so does `fence.sc` when no engine command
is queued (R183); none of them changes a register or memory. `qfence` completes when the queues it names are empty. -/
def Obligations.Fences : Prop :=
  ∀ (s : State) (sc : Scope) (mask : R5), Quiet s →
    let plain := fun (t : State) => SameMem s t ∧ SameCtxs s t ∧ t.cur = s.cur
    let dropped := fun (t : State) => ∀ l ∈ t.my.l1, l.wpage = true → ∀ b ∈ l.bytes, b.2.2 = true
    Gives (.fence .acq sc) s (fun t => plain t ∧ (sc ≠ .ctx → sc ≠ .core → dropped t)) ∧
      (CleanCaches s → Gives (.fence .rel sc) s plain ∧
        (NoQueues s → Gives (.fence .ar sc) s (fun t => plain t ∧ (sc ≠ .ctx → sc ≠ .core → dropped t)))) ∧
      (NoQueues s → Gives (.qfence mask) s fun t =>
        SameMem s t ∧ SameUnits s t ∧ SameOtherCores s t s.cur.core ∧ t.me = { s.me with since := none } ∧
          (∀ d, d ≠ s.cur.ctx → t.ctx s.cur.core d = s.ctx s.cur.core d) ∧ t.cur = s.cur)

/-! ### Memory: translations, homes and returns -/

/-- R135, R402: the end of a walk for a store that waits for its translation: the page enters the TLB of the cluster, before every other
entry. The order of the entries is the model's (log 9). R401, R402: what a walk finds in the tables: the page that a leaf of level 2, 3 or 4
maps, or PAGE with the level where PTROOT.EN is 0, a table lies outside device memory, or an entry is not valid, has a reserved bit, is
misaligned, or has a LEAF that its level forbids. R402, R132: a page's rights at an address: PROT for a write with W = 0 or a user access
with U = 0, PAGE for a page outside device memory, the host and the peers. Stated where nothing holds an error or has failed. -/
def Obligations.WalkFillsTlb : Prop :=
  (∀ (s : State) (cl va : Nat), Reachable s → s.poison = [] →
    let root := (s.cluster cl).ptroot.toNat
    let device := fun (a : Nat) => 0x10000000000 ≤ a ∧ a < 0x16000000000
    let pa := fun (e : Nat) => e / 2 ^ 8 % 2 ^ 42 * 2 ^ 8
    let good := fun (e n : Nat) => e.testBit 0 = true ∧ e / 2 ^ 50 = 0 ∧ e / 2 ^ 6 % 4 = 0 ∧ pa e % n = 0
    let next := fun (e n : Nat) => good e n ∧ e.testBit 1 = false
    let leaf := fun (e n : Nat) => good e n ∧ e.testBit 1 = true
    let W := walkPage s cl va
    let bad := fun (level : Nat) => W = .error (.page, level)
    let maps := fun (e n : Nat) => W = .ok { vbase := va / n * n, size := n, pbase := pa e, u := e.testBit 5, repl := e.testBit 4,
                                             c := e.testBit 3, w := e.testBit 2 }
    let t1 := root / 2 ^ 12 % 2 ^ 38 * 2 ^ 12
    let e1 := s.readN (t1 + 8 * (va / 2 ^ 39 % 512)) 8
    let e2 := s.readN (pa e1 + 8 * (va / 2 ^ 30 % 512)) 8
    let e3 := s.readN (pa e2 + 8 * (va / 2 ^ 21 % 512)) 8
    let e4 := s.readN (pa e3 + 8 * (va / 2 ^ 16 % 32)) 8
    let two := root.testBit 0 = true ∧ device t1 ∧ next e1 4096
    let three := two ∧ device (pa e1) ∧ next e2 4096
    let four := three ∧ device (pa e2) ∧ next e3 256
    (root.testBit 0 = false → bad 1) ∧ (root.testBit 0 = true → (¬ device t1 ∨ ¬ next e1 4096) → bad 1) ∧
      (two → (¬ device (pa e1) ∨ ¬ next e2 4096 ∧ ¬ leaf e2 (2 ^ 30)) → bad 2) ∧
      (two → device (pa e1) → leaf e2 (2 ^ 30) → maps e2 (2 ^ 30)) ∧
      (three → (¬ device (pa e2) ∨ ¬ next e3 256 ∧ ¬ leaf e3 (2 ^ 21)) → bad 3) ∧
      (three → device (pa e2) → leaf e3 (2 ^ 21) → maps e3 (2 ^ 21)) ∧
      (four → (¬ device (pa e3) ∨ ¬ leaf e4 (2 ^ 16)) → bad 4) ∧ (four → device (pa e3) → leaf e4 (2 ^ 16) → maps e4 (2 ^ 16))) ∧
  (∀ (s : State) (k va : Nat) (sup write : Bool), k < 3072 → (s.cluster (k / 8)).computePhase = false → 0x1000000 ≤ va → va < 2 ^ 47 →
    let t := s.cluster (k / 8)
    (t.ptroot.getLsbD 0 = false → look s k sup write va = .bad .page 1) ∧
      (t.ptroot.getLsbD 0 = true → (∀ p ∈ t.tlb, ¬ (p.vbase ≤ va ∧ va < p.vbase + p.size)) → look s k sup write va = .miss) ∧
      ∀ (p : TlbEntry) (rest : List TlbEntry), t.ptroot.getLsbD 0 = true → t.tlb = p :: rest → p.vbase ≤ va → va < p.vbase + p.size →
        let pa := p.pbase + (va - p.vbase)
        let denied := write = true ∧ p.w = false ∨ sup = false ∧ p.u = false
        (denied → look s k sup write va = .bad .prot 0) ∧
          (¬ denied → 0x10000000000 ≤ pa → pa < 0x16000000000 →
            look s k sup write va = .ok pa { cached := p.c, wpage := p.w, repl := p.repl && !p.w }) ∧
          (¬ denied → 0x1000000000000 ≤ pa → pa < 0x3000000000000 → look s k sup write va = .ok pa { cached := p.c, wpage := p.w }) ∧
          (¬ denied → (pa < 0x10000000000 ∨ 0x16000000000 ≤ pa ∧ pa < 0x1000000000000 ∨ 0x3000000000000 ≤ pa) →
            look s k sup write va = .bad .page 0)) ∧
  ∀ (s : State) (k e va : Nat) (o : Op) (p : TlbEntry), s.coreStill k = false → e < 64 → Tab.find (s.core k).ops e = some o →
    Settled s → isPlainStore o.instr = true → o.stage = .walk → o.flt = none →
    firstMiss s k o.sup true o.ea.toNat o.size = some va → walkPage s (clusterOf k) va = .ok p →
    Gives (.translationWalk k e) s fun t => (t.cluster (clusterOf k)).tlb.head? = some p ∧ SameMem s t

/-- R139, R142: the oldest entry of a write buffer whose home is the core's own TCM leaves it, and memory then holds its bytes; every
other byte is as before. -/
def Obligations.DrainReachesMemory : Prop :=
  ∀ (s : State) (k off : Nat) (e : WbEntry) (rest : List WbEntry), s.coreStill k = false → (s.core k).wb = e :: rest →
    e.cached = false → homeAt (e.sector * 32) = .tcm k off → e.bytes.Pairwise (fun a b => a.1 ≠ b.1) →
    Gives (.writeBufferDrain k e.bank) s fun t =>
      (t.core k).wb = rest ∧ (∀ b ∈ e.bytes, memGet t.mem (e.sector * 32 + b.1) = b.2.1) ∧
        (∀ x, (∀ b ∈ e.bytes, x ≠ e.sector * 32 + b.1) → memGet t.mem x = memGet s.mem x) ∧ SameCtxs s t

/-- R139, R168, R172: the home of an access in device memory performs the one that has waited longest and answers it: a read gives the
bytes there; an atomic writes the value of its operation and gives the old one; a write writes its bytes; `frd` takes the value of a
full future and leaves it empty; `fwr` fills an empty one. Nothing else in memory changes. That a home answers in the step that performs
the access is the model's grain (log 1). -/
def Obligations.HomePerforms : Prop :=
  ∀ (s : State) (i : Nat) (a : Access) (rest : List Access), s.tileStopped i = false → (s.iface i).arr = a :: rest →
    homeAt a.pa = .device → a.replica = false → a.err = false → s.poison = [] → tileOf a.core ≠ i → a.asker ≠ .none →
    let answers := fun (bs : List Byte) (t : State) =>
      (t.iface i).arr = rest ∧ ∃ m, (t.iface i).out = (s.iface i).out ++ [m] ∧ m.dst = tileOf a.core ∧
        m.body = .answer a.asker a.core a.ctx a.stamp bs none a.pa
    let future := s.readN (a.pa + 8) 8
    (a.kind = .read → Gives (.homeAccess i) s fun t => answers (s.read a.pa a.n) t ∧ SameMem s t) ∧
      (a.kind = .write → a.data.Pairwise (fun x y => x.1 ≠ y.1) → Gives (.homeAccess i) s fun t =>
        answers [] t ∧ (∀ b ∈ a.data, memGet t.mem (a.pa + b.1) = b.2.1) ∧
          ∀ x, (∀ b ∈ a.data, x ≠ a.pa + b.1) → memGet t.mem x = memGet s.mem x) ∧
      (∀ (op w : Nat) (sg : Bool) (x c : Nat), a.kind = .atomic op w sg x c → op < 8 → (w = 32 ∨ w = 64) → x < 2 ^ w → c < 2 ^ w →
        let old : BitVec w := BitVec.ofNat w (s.readN a.pa (w / 8))
        let y : BitVec w := BitVec.ofNat w x
        let less := fun (p q : BitVec w) => if sg then p.slt q else p.ult q
        let new : BitVec w :=
          if op = 0 then old + y else if op = 1 then old &&& y else if op = 2 then old ||| y else if op = 3 then old ^^^ y
          else if op = 4 then (if less y old then y else old) else if op = 5 then (if less old y then y else old)
          else if op = 6 then y else if old = BitVec.ofNat w c then y else old
        Gives (.homeAccess i) s fun t => answers (s.read a.pa (w / 8)) t ∧ t.readN a.pa (w / 8) = new.toNat ∧ SameMemBut s t a.pa (w / 8)) ∧
      (a.kind = .frd → future = 1 → Gives (.homeAccess i) s fun t =>
        answers (s.read a.pa 8) t ∧ t.readN (a.pa + 8) 8 = 0 ∧ SameMemBut s t (a.pa + 8) 8) ∧
      (∀ (v : Nat) (anyway : Bool), a.kind = .fwr v anyway → v < 2 ^ 64 → future = 0 → Gives (.homeAccess i) s fun t =>
        answers [] t ∧ t.readN a.pa 8 = v ∧ t.readN (a.pa + 8) 8 = 1 ∧ SameMemBut s t a.pa 16)

/-- R161, R162, R165, R168, R172: a remote load, an indexed load with `.acq`, an atomic or an `frd` whose data is back completes: its
destination holds the value, as its form extends it, its entry is free, and a context that waits in `frd` is ready; memory is as before.
Stated for untranslated addresses, whose lines enter no cache, and for pieces that no write of the core since has overtaken. That g0
discards a write is the model's reading (log 6). -/
def Obligations.DataReturns : Prop :=
  ∀ (s : State) (k e : Nat) (o : Op) (d a b : R5) (imm : BitVec 14) (mo : MemOrd) (sc : Scope) (t : Ty) (sft : BitVec 4),
    s.coreStill k = false → Tab.find (s.core k).ops e = some o → o.allGot = true → (s.core k).loadsPending o.ctx o.stamp = false →
    (∀ p ∈ o.parts, p.attrC = false ∧ p.again = false) → (t = .i32 ∨ t = .i64 ∨ t = .n32 ∨ t = .n64) →
    let m := ofBytes o.bytes
    let back := fun (v : Word) (u : State) => SameMem s u ∧ Tab.find (u.core k).ops e = none ∧
      ∀ r, (u.ctx k o.ctx).readG r = if r = d.toNat ∧ r ≠ 0 then v else (s.ctx k o.ctx).readG r
    let at' : Word := Spec.ext t (BitVec.ofNat t.w m)
    let forms : List (Instr × Word) :=
      [(.rldw d a imm, (BitVec.ofNat 32 m).signExtend 64), (.rldd d a imm, BitVec.ofNat 64 m),
       (.ldbx d a b .acq sc sft, (BitVec.ofNat 8 m).signExtend 64), (.ldbnx d a b .acq sc sft, BitVec.ofNat 64 m),
       (.ldhx d a b .acq sc sft, (BitVec.ofNat 16 m).signExtend 64), (.ldhnx d a b .acq sc sft, BitVec.ofNat 64 m),
       (.ldwx d a b .acq sc sft, (BitVec.ofNat 32 m).signExtend 64), (.ldwnx d a b .acq sc sft, BitVec.ofNat 64 m),
       (.lddx d a b .acq sc sft, BitVec.ofNat 64 m), (.aadd d a b mo sc t, at'), (.aand d a b mo sc t, at'), (.aor d a b mo sc t, at'),
       (.axor d a b mo sc t, at'), (.amin d a b mo sc t, at'), (.amax d a b mo sc t, at'), (.aswp d a b mo sc t, at'),
       (.acas d a b mo sc t, at')]
    (∀ f ∈ forms, o.instr = f.1 → Gives (.loadDataReturn k e) s (back f.2)) ∧
      (∀ i ∈ [Instr.ldqx d a b .acq sc sft, .ldvx d a b .acq sc sft], o.instr = i → Gives (.loadDataReturn k e) s fun u =>
        SameMem s u ∧ Tab.find (u.core k).ops e = none ∧
          ∀ r, (u.ctx k o.ctx).readV r = if r = d.toNat then BitVec.ofNat 512 m else (s.ctx k o.ctx).readV r) ∧
      (o.instr = .frd d a → (s.ctx k o.ctx).run = .blocked (.frd e) →
        Gives (.loadDataReturn k e) s (fun u => back (BitVec.ofNat 64 m) u ∧ (u.ctx k o.ctx).run = .ready))

/-! ### The vector unit -/

/-- R205, R206, R220: a vector instruction enters the core's vector queue while it has room, with the value of its governing predicate
(every lane for pg 0) and of the general registers that it reads, as they stand at issue; no register and no memory changes before it is
performed. `aget` and `aput` raise ACC_BUSY while a Mill command owns the tile (R226, R227); that the tiles of a command which has not
started are those of the class that FMTA and FMTB name as they stand, two for a block of the 64-bit class, is the model's reading (log 40).
R207 to R209: in a cycle of an arbiter that begins with core 0 and no deficit, where every lane group is free and one core has an
instruction at the head of its vector queue that may start, that instruction starts on a lane group, in the rounding mode that it names or
that MSTAT holds then (R52); no register changes. R223, R229, stated for addresses in the core's own TCM: a `vgat` that is performed brings
the element at gA plus the index times its size into each governed lane; a `vsct` writes each governed lane there, the highest last; a
`sisect` advances over both lists as R229 says, adds the matches to gD and, with its option, writes them (stated for lists of one
element). -/
def Obligations.VectorQueue : Prop :=
  (∀ (s : State) (d a b : R5) (pg : BitVec 3) (t src : Ty) (rm : Rm) (row : BitVec 4) (imm : BitVec 15) (opt : Bool),
    s.my.vq.length < 16 → NoBody s →
    let push := fun (p : Word) (i : Instr) (vals : List Word) => Gives i s (Queues (fun x => x.vq) (fun m => m.pred = p ∧ m.vals = vals) s i)
    let gov := push (if pg = 0 then BitVec.allOnes 64 else s.srcP pg.toNat)
    let q := fun (i : Instr) => gov i []
    let all := push (BitVec.allOnes 64)
    let g := fun (r : R5) (j : Nat) => s.atIssue.readG (r.toNat + j)
    let owned := fun (r : R5) => ∃ o ∈ s.my.owners, o.first ≤ r.toNat ∧ r.toNat < o.first + ownCount s.my o
    let w := t.w / 8
    let aligned := (s.srcG a).toNat % w = 0 ∧ (s.srcG b).toNat % w = 0 ∧ (opt = true → (g d 1).toNat % w = 0)
    q (.vadd d a b pg t rm) ∧ q (.vsub d a b pg t rm) ∧ q (.vmul d a b pg t rm) ∧ q (.vdiv d a b pg t rm) ∧ q (.vmin d a b pg t) ∧
      q (.vmax d a b pg t) ∧ q (.vabs d a pg t) ∧ q (.vneg d a pg t) ∧ q (.vfma d a b pg t rm) ∧ q (.vfms d a b pg t rm) ∧
      q (.vsqrt d a pg t rm) ∧ q (.vand d a b pg t) ∧ q (.vor d a b pg t) ∧ q (.vxor d a b pg t) ∧ q (.vshl d a b pg t) ∧
      q (.vshr d a b pg t) ∧ q (.vcvt d a src pg t rm) ∧ q (.vceq d a b pg t) ∧ q (.vcne d a b pg t) ∧ q (.vclt d a b pg t) ∧
      q (.vcle d a b pg t) ∧ q (.vsel d a b pg t) ∧ q (.vrsum d a pg t rm) ∧ q (.vrmin d a pg t) ∧ q (.vrmax d a pg t) ∧
      q (.vperm d a b pg t) ∧ gov (.vbcast d a pg t) [s.srcG a] ∧ gov (.vslide d a b pg t) [0, s.srcG b] ∧ gov (.vgat d a b pg t) [s.srcG a] ∧
      gov (.vsct d a b pg t) [s.srcG a] ∧ q (.vmov d a pg t) ∧ q (.vpopc d a pg t) ∧ q (.vclz d a pg t) ∧ q (.vmulh d a b pg t) ∧
      all (.vextg d a b t) [0, s.srcG b] ∧ all (.vinsg d a b t) [s.srcG a, s.srcG b] ∧ all (.vmovi d imm) [] ∧
      (aligned → all (.sisect d a b t opt) [g a 0, g a 1, g b 0, g b 1, g d 0, if opt then g d 1 else 0]) ∧
      (¬ owned a → all (.aget d a row) []) ∧ (¬ owned d → all (.aput d a row) []) ∧
      (MayEnter s s.cur.core s.cur.ctx → owned a → Gives (.aget d a row) s (Faults s 0x18 0)) ∧
      (MayEnter s s.cur.core s.cur.ctx → owned d → Gives (.aput d a row) s (Faults s 0x18 0))) ∧
  (∀ (s : State) (cl j : Nat) (m : Cmd), cl < 384 → j < 8 → s.clusterStill cl = false → (s.cluster cl).arbP = 0 →
    (s.cluster cl).arbD = [] → (s.cluster cl).vshare = [] → (∀ i ∈ coresOf cl, i ≠ cl * 8 + j → (s.core i).vq = []) →
    (∀ e ∈ (s.core (cl * 8 + j)).vq, e.started = false) → vecHead (s.core (cl * 8 + j)) = some m →
    Gives (.vectorStart cl) s fun t => SameMem s t ∧ SameCtxs s t ∧
      ∃ g, g < 8 ∧ ∃ n ∈ (t.core (cl * 8 + j)).vq, n.instr = m.instr ∧ n.idx = m.idx ∧ n.started = true ∧ n.group = g ∧ n.pred = m.pred ∧
        ((∀ d a row, m.instr ≠ .aget d a row) → n.vals = m.vals) ∧
        ∀ (d a b : R5) (pg : BitVec 3) (ty ts : Ty) (rm : Rm), m.instr ∈ [Instr.vadd d a b pg ty rm, .vsub d a b pg ty rm, .vmul d a b pg ty rm,
            .vdiv d a b pg ty rm, .vfma d a b pg ty rm, .vfms d a b pg ty rm, .vsqrt d a pg ty rm, .vrsum d a pg ty rm, .vcvt d a ts pg ty rm] →
          (rm ≠ .dflt → n.mill.rm = rm) ∧
            ∀ c ∈ [(1, Rm.rne), (2, .rtz), (3, .rup), (4, .rdn)], rm = .dflt → (s.core (cl * 8 + j)).mstat.rm = c.1 → n.mill.rm = c.2) ∧
  (∀ (s : State) (cl k g : Nat) (m : Cmd) (d a b : R5) (pg : BitVec 3) (t : Ty) (v : Word), Holds s cl k g m → k < 3072 → s.poison = [] →
    t ∈ [Ty.i8, .n8, .i16, .n16, .i32, .n32, .bf16, .f16, .f32, .e4m3, .e5m2] → m.vals = [v] →
    let L := fun (x : Ctx) (r : R5) (j : Nat) => (x.readV r.toNat).extractLsb' (t.w * j) t.w
    let x := s.ctx k m.ctx
    let w := t.w / 8
    let on := fun (j : Nat) => j < 512 / t.w ∧ m.pred.getLsbD j = true
    let ea := fun (j : Nat) => v.toNat + (L x b j).toNat * w
    (m.instr = .vgat d a b pg t → (∀ j, on j → ea j + w ≤ 0x20000) → Gives (.vectorComplete cl g) s fun u => LeavesV s k m u ∧
      { u.ctx k m.ctx with v := x.v } = x ∧ (∀ r, r ≠ d.toNat → (u.ctx k m.ctx).readV r = x.readV r) ∧
        ∀ j, j < 512 / t.w → L (u.ctx k m.ctx) d j = if m.pred.getLsbD j then BitVec.ofNat t.w (s.readN (tcmBase k + ea j) w) else L x d j) ∧
      (m.instr = .vsct d a b pg t → (∀ j, on j → ea j + w ≤ 0x1F000) → (∀ r ∈ (s.core k).rings, r.2.guard = false) →
        Gives (.vectorComplete cl g) s fun u => (u.core k).vq = [] ∧ SameUnits s u ∧ SameOtherCores s u k ∧ SameCtxs s u ∧
          (∀ j, on j → (∀ i, on i → j < i → ea i + w ≤ ea j ∨ ea j + w ≤ ea i) → u.readN (tcmBase k + ea j) w = (L x d j).toNat) ∧
          ∀ p, (∀ j, on j → p < tcmBase k + ea j ∨ tcmBase k + ea j + w ≤ p) → memGet u.mem p = memGet s.mem p)) ∧
  (∀ (s : State) (cl k g : Nat) (m : Cmd) (d a b : R5) (t : Ty) (opt : Bool) (pa na pb nb c po : Nat), Holds s cl k g m → k < 3072 →
    s.poison = [] → (t = .n32 ∨ t = .n64) → Wf.sisectRegs d a b opt → m.instr = .sisect d a b t opt →
    m.vals = [pa, na, pb, nb, c, po].map (BitVec.ofNat 64) → c < 2 ^ 64 →
    let w := t.w / 8
    let x := s.ctx k m.ctx
    let list := fun (p n : Nat) => (List.range n).map fun i => s.readN (tcmBase k + p + w * i) w
    let ends := fun (na' nb' c' po' : Nat) (u : State) => { u.ctx k m.ctx with g := x.g } = x ∧ ∀ i, (u.ctx k m.ctx).readG i =
      if i = a.toNat then BitVec.ofNat 64 (pa + w * (na - na')) else if i = a.toNat + 1 then BitVec.ofNat 64 na'
      else if i = b.toNat then BitVec.ofNat 64 (pb + w * (nb - nb')) else if i = b.toNat + 1 then BitVec.ofNat 64 nb'
      else if i = d.toNat then BitVec.ofNat 64 c' else if opt = true ∧ i = d.toNat + 1 then BitVec.ofNat 64 po' else x.readG i
    pa + w * na ≤ 0x20000 → pb + w * nb ≤ 0x20000 →
    (opt = false →
      let r := Spec.meet (na + nb) (list pa na) (list pb nb)
      Gives (.vectorComplete cl g) s fun u => LeavesV s k m u ∧ ends r.1.length r.2.1.length (c + r.2.2.length) 0 u) ∧
      (opt = true → na = 1 → nb = 1 → list pa 1 = list pb 1 → po + w ≤ 0x1F000 → Gives (.vectorComplete cl g) s fun u =>
        (u.core k).vq = [] ∧ SameUnits s u ∧ SameOtherCores s u k ∧ (∀ h, h ≠ m.ctx → u.ctx k h = s.ctx k h) ∧ ends 0 0 (c + 1) (po + w) u ∧
          u.read (tcmBase k + po) w = s.read (tcmBase k + pa) w ∧ SameMemBut s u (tcmBase k + po) w))

/-- R208, R215 to R218, R221: the elementwise instructions, `vmov` and `vcvt`: each governed lane of the destination holds the result for
the lanes of the sources, every other lane and register keeps its value (`vcvt` to a narrower type clears the lanes above), and the
instruction leaves the queue. On the types of group I no flag changes. On those of group F the result and its flags are those of the
floating operation in the mode that the start has read, and the flags of the governed lanes are ORed into MSTAT; `vabs`, `vneg` and `vmov`
copy bits. R76 to R78: a value that the format holds is rounded to itself, with no flag. -/
def Obligations.VectorElementwise : Prop :=
  (∀ (s : State) (cl k g : Nat) (m : Cmd) (d a b : R5) (pg : BitVec 3) (t : Ty) (rm : Rm), Holds s cl k g m →
    (t = .i8 ∨ t = .n8 ∨ t = .i16 ∨ t = .n16 ∨ t = .i32 ∨ t = .n32) →
    let L := fun (x : Ctx) (r : R5) (j : Nat) => (x.readV r.toNat).extractLsb' (t.w * j) t.w
    let x := s.ctx k m.ctx
    let is := fun (i : Instr) (f : BitVec t.w → BitVec t.w → BitVec t.w → BitVec t.w) => m.instr = i →
      Gives (.vectorComplete cl g) s fun u => LeavesV s k m u ∧ (u.core k).mstat = (s.core k).mstat ∧
        { u.ctx k m.ctx with v := x.v } = x ∧ (∀ r, r ≠ d.toNat → (u.ctx k m.ctx).readV r = x.readV r) ∧
        ∀ j, j < 512 / t.w → L (u.ctx k m.ctx) d j = if m.pred.getLsbD j then f (L x a j) (L x b j) (L x d j) else L x d j
    is (.vadd d a b pg t rm) (fun p q _ => p + q) ∧ is (.vsub d a b pg t rm) (fun p q _ => p - q) ∧
      is (.vmul d a b pg t rm) (fun p q _ => p * q) ∧ is (.vmin d a b pg t) (fun p q _ => if Spec.lt t p q then p else q) ∧
      is (.vmax d a b pg t) (fun p q _ => if Spec.lt t p q then q else p) ∧ is (.vand d a b pg t) (fun p q _ => p &&& q) ∧
      is (.vor d a b pg t) (fun p q _ => p ||| q) ∧ is (.vxor d a b pg t) (fun p q _ => p ^^^ q) ∧
      is (.vshl d a b pg t) (fun p q _ => p <<< (q.toNat % t.w)) ∧
      is (.vshr d a b pg t) (fun p q _ => if t.signed then p.sshiftRight (q.toNat % t.w) else p >>> (q.toNat % t.w)) ∧
      is (.vmulh d a b pg t) (fun p q _ => Spec.mulh t p q) ∧ is (.vfma d a b pg t rm) (fun p q r => r + p * q) ∧
      is (.vfms d a b pg t rm) (fun p q r => r - p * q) ∧ is (.vmov d a pg t) (fun p _ _ => p) ∧
      is (.vpopc d a pg t) (fun p _ _ => BitVec.ofNat t.w ((List.range t.w).countP fun i => p.getLsbD i)) ∧
      is (.vclz d a pg t) (fun p _ _ => BitVec.ofNat t.w ((List.range t.w).takeWhile fun i => !p.getLsbD (t.w - 1 - i)).length) ∧
      (t.signed = true → is (.vabs d a pg t) (fun p _ _ => if p.msb then -p else p) ∧ is (.vneg d a pg t) (fun p _ _ => -p))) ∧
  (∀ (s : State) (cl k g : Nat) (m : Cmd) (d a b : R5) (pg : BitVec 3) (t : Ty) (rm : Rm), Holds s cl k g m →
    t ∈ [Ty.bf16, .f16, .f32, .e4m3, .e5m2] →
    let L := fun (x : Ctx) (r : R5) (j : Nat) => (x.readV r.toNat).extractLsb' (t.w * j) t.w
    let x := s.ctx k m.ctx
    let V := fun (r : R5) (j : Nat) => t.fmt.decode (L x r j).toNat
    let only := fun (f : Nat → BitVec t.w) (u : State) => LeavesV s k m u ∧ { u.ctx k m.ctx with v := x.v } = x ∧
      (∀ r, r ≠ d.toNat → (u.ctx k m.ctx).readV r = x.readV r) ∧
      ∀ j, j < 512 / t.w → L (u.ctx k m.ctx) d j = if m.pred.getLsbD j then f j else L x d j
    let is := fun (i : Instr) (f : Nat → FRes) => m.instr = i → Gives (.vectorComplete cl g) s fun u =>
      only (fun j => BitVec.ofNat t.w (f j).bits) u ∧ (u.core k).mstat = { (s.core k).mstat with fl :=
        (((List.range (512 / t.w)).filter fun j => m.pred.getLsbD j).map fun j => (f j).fl).foldl Flags.or (s.core k).mstat.fl }
    let copies := fun (i : Instr) (f : BitVec t.w → BitVec t.w) => m.instr = i → Gives (.vectorComplete cl g) s fun u =>
      only (fun j => f (L x a j)) u ∧ (u.core k).mstat = (s.core k).mstat
    let md := m.mill.rm
    copies (.vmov d a pg t) (fun p => p) ∧ (t ≠ .e4m3 → t ≠ .e5m2 →
    is (.vadd d a b pg t rm) (fun j => fAdd t.fmt md (V a j) (V b j)) ∧ is (.vsub d a b pg t rm) (fun j => fAdd t.fmt md (V a j) (V b j).negate) ∧
      is (.vmul d a b pg t rm) (fun j => fMul t.fmt md (V a j) (V b j)) ∧ is (.vdiv d a b pg t rm) (fun j => fDiv t.fmt md (V a j) (V b j)) ∧
      is (.vmin d a b pg t) (fun j => fMin t.fmt false (V a j) (V b j)) ∧ is (.vmax d a b pg t) (fun j => fMin t.fmt true (V a j) (V b j)) ∧
      is (.vfma d a b pg t rm) (fun j => fFma t.fmt md false (V a j) (V b j) (V d j)) ∧
      is (.vfms d a b pg t rm) (fun j => fFma t.fmt md true (V a j) (V b j) (V d j)) ∧ is (.vsqrt d a pg t rm) (fun j => fSqrt t.fmt md (V a j)) ∧
      copies (.vabs d a pg t) (fun p => p &&& BitVec.allOnes t.w >>> 1) ∧ copies (.vneg d a pg t) (fun p => p ^^^ BitVec.intMin t.w) ∧
      ∀ (y : Nat) (neg : Bool) (q : Nat) (e : Int), y < 2 ^ t.w → t.fmt.decode y = .fin neg q e → roundTo t.fmt md neg q e = { bits := y })) ∧
  (∀ (s : State) (cl k g : Nat) (m : Cmd) (d a : R5) (pg : BitVec 3) (t ts : Ty) (rm : Rm), Holds s cl k g m →
    let int := fun (t : Ty) => t ∈ [Ty.i8, .n8, .i16, .n16, .i32, .n32]
    let ok := fun (t : Ty) => int t ∨ t ∈ [Ty.bf16, .f16, .f32, .e4m3, .e5m2]
    ok t → ok ts → m.instr = .vcvt d a ts pg t rm →
    let x := s.ctx k m.ctx
    let n := 512 / max ts.w t.w
    let old := fun (j : Nat) => (x.readV d.toNat).extractLsb' (t.w * j) t.w
    let from' := fun (j : Nat) => (x.readV a.toNat).extractLsb' (ts.w * j) ts.w
    let r := fun (j : Nat) => convertElem t ts m.mill.rm (from' j).toNat
    Gives (.vectorComplete cl g) s fun u => LeavesV s k m u ∧ { u.ctx k m.ctx with v := x.v } = x ∧
      (∀ r, r ≠ d.toNat → (u.ctx k m.ctx).readV r = x.readV r) ∧
      (∀ j, j < 512 / t.w → ((u.ctx k m.ctx).readV d.toNat).extractLsb' (t.w * j) t.w =
        if n ≤ j then 0 else if m.pred.getLsbD j = false then old j
        else if int t ∧ int ts then (if ts.signed then (from' j).signExtend t.w else (from' j).setWidth t.w)
        else BitVec.ofNat t.w (r j).bits) ∧
      (u.core k).mstat = { (s.core k).mstat with fl :=
        (((List.range n).filter fun j => m.pred.getLsbD j).map fun j => (r j).fl).foldl Flags.or (s.core k).mstat.fl })

/-- R219, R221, R222: the compares write a bit for every governed lane and 0 elsewhere, of floating lanes with NV for a NaN as R219 says;
`vrsum`, `vrmin` and `vrmax` reduce the governed lanes in increasing order into lane 0, in floating types step by step with the flags of
the steps (R81), and clear the other lanes; `vsel` chooses lanes by the predicate; `vperm` takes the lane that vB names, and `vslide` the
lane k further on; `vbcast` spreads the low bits of a general register, and `vinsg` puts them into one lane; `vextg` brings one lane,
extended by its type, into a general register. Nothing else changes. That g0 discards a write is the model's reading (log 6). -/
def Obligations.VectorAcrossLanes : Prop :=
  ∀ (s : State) (cl k g : Nat) (m : Cmd) (d a b : R5) (pg : BitVec 3) (t : Ty) (rm : Rm), Holds s cl k g m →
    let int := t = .i8 ∨ t = .n8 ∨ t = .i16 ∨ t = .n16 ∨ t = .i32 ∨ t = .n32
    let float := t = .bf16 ∨ t = .f16 ∨ t = .f32
    let L := fun (x : Ctx) (r : R5) (j : Nat) => (x.readV r.toNat).extractLsb' (t.w * j) t.w
    let x := s.ctx k m.ctx
    let V := fun (r : R5) (j : Nat) => t.fmt.decode (L x r j).toNat
    let n := 512 / t.w
    let on := (List.range n).filter fun j => m.pred.getLsbD j
    let flags := fun (u : State) (f : Flags) => (u.core k).mstat = { (s.core k).mstat with fl := (s.core k).mstat.fl.or f }
    let cmp := fun (i : Instr) (f : Nat → Bool) (nv : Nat → Bool) => m.instr = i → Gives (.vectorComplete cl g) s fun u =>
      LeavesV s k m u ∧ flags u { nv := on.any nv } ∧ { u.ctx k m.ctx with p := x.p } = x ∧
        (∀ r, r ≠ d.toNat → (u.ctx k m.ctx).readP r = x.readP r) ∧
        ∀ j, j < 64 → ((u.ctx k m.ctx).readP d.toNat).getLsbD j = (decide (j < n) && m.pred.getLsbD j && f j)
    let icmp := fun (i : Instr) (f : BitVec t.w → BitVec t.w → Bool) => cmp i (fun j => f (L x a j) (L x b j)) fun _ => false
    let nan := fun (j : Nat) => (V a j).isNan || (V b j).isNan
    let sig := fun (j : Nat) => (V a j).isSig || (V b j).isSig
    let vec := fun (i : Instr) (f : Flags) (v : VWord → Prop) => m.instr = i → Gives (.vectorComplete cl g) s fun u =>
      LeavesV s k m u ∧ flags u f ∧ { u.ctx k m.ctx with v := x.v } = x ∧
        (∀ r, r ≠ d.toNat → (u.ctx k m.ctx).readV r = x.readV r) ∧ v ((u.ctx k m.ctx).readV d.toNat)
    let lanes := fun (i : Instr) (f : Nat → BitVec t.w) => vec i {} fun v => ∀ j, j < n → v.extractLsb' (t.w * j) t.w = f j
    let sum := fun (i : Instr) (z : BitVec t.w) (f : BitVec t.w → BitVec t.w → BitVec t.w) =>
      vec i {} fun v => v = (on.foldl (fun z j => f z (L x a j)) z).setWidth 512
    let fsum := fun (i : Instr) (z : Nat) (f : FVal → FVal → FRes) =>
      let r := on.foldl (fun (z : FRes) j => let y := f (t.fmt.decode z.bits) (V a j); ({ bits := y.bits, fl := z.fl.or y.fl } : FRes)) { bits := z }
      vec i r.fl fun v => v = (BitVec.ofNat t.w r.bits).setWidth 512
    (int → icmp (.vceq d a b pg t) (fun p q => p == q) ∧ icmp (.vcne d a b pg t) (fun p q => p != q) ∧
      icmp (.vclt d a b pg t) (fun p q => Spec.lt t p q) ∧ icmp (.vcle d a b pg t) (fun p q => !Spec.lt t q p) ∧
      sum (.vrsum d a pg t rm) 0 (fun z p => z + p) ∧
      sum (.vrmin d a pg t) (if t.signed then BitVec.intMax t.w else BitVec.allOnes t.w) (fun z p => if Spec.lt t p z then p else z) ∧
      sum (.vrmax d a pg t) (if t.signed then BitVec.intMin t.w else 0) (fun z p => if Spec.lt t z p then p else z)) ∧
    (float → cmp (.vceq d a b pg t) (fun j => !nan j && fEq (V a j) (V b j)) sig ∧
      cmp (.vcne d a b pg t) (fun j => nan j || !fEq (V a j) (V b j)) sig ∧
      cmp (.vclt d a b pg t) (fun j => !nan j && fLt (V a j) (V b j)) nan ∧
      cmp (.vcle d a b pg t) (fun j => !nan j && (fLt (V a j) (V b j) || fEq (V a j) (V b j))) nan ∧
      fsum (.vrsum d a pg t rm) (t.fmt.sign true) (fAdd t.fmt m.mill.rm) ∧ fsum (.vrmin d a pg t) t.fmt.infinity (fMin t.fmt false) ∧
      fsum (.vrmax d a pg t) (t.fmt.sign true + t.fmt.infinity) (fMin t.fmt true)) ∧
    (int ∨ float ∨ t = .e4m3 ∨ t = .e5m2 →
      lanes (.vsel d a b pg t) (fun j => if m.pred.getLsbD j then L x a j else L x b j) ∧
      lanes (.vperm d a b pg t) (fun j => if m.pred.getLsbD j then L x a ((L x b j).toNat % n) else L x d j) ∧
      (∀ v, m.vals = [v] → lanes (.vbcast d a pg t) (fun j => if m.pred.getLsbD j then v.setWidth t.w else L x d j)) ∧
      (∀ u v, m.vals = [u, v] →
        lanes (.vslide d a b pg t) (fun j =>
          if m.pred.getLsbD j = false then L x d j
          else if 0 ≤ (j : Int) + v.toInt ∧ (j : Int) + v.toInt < n then L x a ((j : Int) + v.toInt).toNat else 0) ∧
        lanes (.vinsg d a b t) (fun j => if j = v.toNat % n then u.setWidth t.w else L x d j) ∧
        (m.instr = .vextg d a b t → Gives (.vectorComplete cl g) s fun z =>
          LeavesV s k m z ∧ { z.ctx k m.ctx with g := x.g } = x ∧
            ∀ r, (z.ctx k m.ctx).readG r = if r = d.toNat ∧ r ≠ 0 then Spec.ext t (L x a (v.toNat % n)) else x.readG r)))

/-! ### The Mill -/

/-- R236, R247, R252, R253, R256, R257, R259, R270, R273: a Mill command whose ring, shape and addresses pass the checks at issue enters
the Mill queue while it has room, with the registers it reads and its shape, in the open batch, and owns its accumulator tiles; no
register and no memory changes. A tree walk whose base register is outside g1 to g29 raises ILLEGAL_ENC. -/
def Obligations.MillEntersQueue : Prop :=
  ∀ (s : State) (acc k b : R5) (n : BitVec 3) (hb ha z keep : Bool) (rm : Rm), s.my.mq.length < 16 → NoBody s →
    let set := fun (r : R5) => (Tab.find s.my.rings r.toNat).isSome = true
    let h := s.my.shapes.get {} n.toNat
    let tiles := (h.m + 15) / 16 * ((h.n + 15) / 16)
    let g := fun (j : Nat) => s.atIssue.readG (b.toNat + j)
    let f := fun (x : Word) (hi lo : Nat) => x.toNat / 2 ^ lo % 2 ^ (hi + 1 - lo)
    let enters := fun (i : Instr) (vals : List Word) (sh : Shape) (own : Option (Nat × Nat)) => Gives i s fun t =>
      Queues (fun x => x.mq) (fun m => m.vals = vals ∧ m.shape = sh ∧ m.batch = s.my.openBatch) s i t ∧
        t.my.owners = s.my.owners ++ (own.map fun o =>
          ({ stamp := s.now, first := o.1, count := o.2, batch := s.my.openBatch } : Owner)).toList
    let fits := 1 ≤ h.m ∧ h.m ≤ 64 ∧ tiles ≤ 16 ∧ acc.toNat + tiles ≤ 16
    let dense := fits ∧ 1 ≤ h.n ∧ h.ka = h.kb ∧ h.ka ≠ 0
    let bOk := (g 0).toNat % 32 = 0 ∧ (g 0).toNat < 2 ^ 22
    let own := some (acc.toNat, tiles)
    (set k → dense → bOk → enters (.mma acc k b n hb ha false rm) [g 0] h own ∧ enters (.mmaz acc k b n hb ha false rm) [g 0] h own) ∧
      (set k → set b → dense → enters (.mma acc k b n hb ha true rm) [] h own ∧ enters (.mmaz acc k b n hb ha true rm) [] h own) ∧
      (set k → dense → bOk → f (g 1) 31 16 = 0 → enters (.mmt acc k b n z ha rm) [g 0, g 1] h own) ∧
      (set k → fits → 1 ≤ b.toNat → b.toNat ≤ 29 → 1 ≤ h.n → h.ka ≠ 0 → h.kb = 0 → h.bstr = 0 → f (g 1) 23 0 < f (g 1) 47 24 → f (g 1) 63 56 = 0 → f (g 2) 31 22 = 0 →
        f (g 2) 63 54 = 0 → (g 0).toNat % 64 = 0 → f (g 2) 21 0 % 8 = 0 → f (g 2) 53 32 % 4 = 0 →
        f (g 2) 21 0 + 8 * h.m ≤ 0x400000 → f (g 2) 53 32 + 4 * h.m ≤ 0x400000 →
        enters (.twalk acc k b n z keep ha rm) [g 0, g 1, g 2] h own ∧ enters (.twres acc k b n z keep ha rm) [g 0, g 1, g 2] h own) ∧
      ((b.toNat < 1 ∨ 29 < b.toNat) → MayEnter s s.cur.core s.cur.ctx →
        Gives (.twalk acc k b n z keep ha rm) s (Faults s 0x01 0) ∧ Gives (.twres acc k b n z keep ha rm) s (Faults s 0x01 0)) ∧
      (acc.toNat + k.toNat + 1 ≤ 16 → enters (.aclr acc k b) [s.srcG b] {} (some (acc.toNat, k.toNat + 1))) ∧
      (∀ r, Tab.find s.my.rings k.toNat = some r → 1 ≤ (s.srcG b).toNat → (s.srcG b).toNat ≤ r.nslot →
        enters (.rpop k b) [s.srcG b] {} none)

/-- R242, R243, R246, R252: `rset` writes a ring descriptor that lies in scratch, with all slots free; `rpush` fills slots of a ring
that has them free and gives what is left; `shp` writes a shape record; `mcommit` closes the open batch; `mwait` completes when no more
than n closed batches are outstanding, and otherwise waits. No memory changes. A bad descriptor or an unset ring raises RING_FORM, a
ring that an incomplete Mill command names RING_OWNED, and a reserved bit of a shape SHAPE. That a result of `rpush` for g0 is discarded is
the model's reading (log 6). -/
def Obligations.RingsAndBatches : Prop :=
  ∀ (s : State) (d a k b : R5) (n : BitVec 3),
    let x := (s.srcG a).toNat
    let y := (s.srcG b).toNat
    let f := fun (v hi lo : Nat) => v / 2 ^ lo % 2 ^ (hi + 1 - lo)
    let slotb := f y 19 8 * 64
    let good := x < 2 ^ 22 ∧ x % 32 = 0 ∧ 1 ≤ f y 6 0 ∧ f y 6 0 ≤ 64 ∧ 64 ≤ slotb ∧ f y 7 7 = 0 ∧ f y 30 20 = 0 ∧ y < 2 ^ 32 ∧
      x + f y 6 0 * slotb ≤ 0x400000
    let only := fun (t : State) => OnlyCore s t s.cur.core
    let names := fun (m : Cmd) => m.mill.aborted = false ∧ ∃ (acc c g : R5) (n : BitVec 3) (hb ha z kp : Bool) (rm : Rm), m.instr ∈
      [Instr.mma acc k g n hb ha z rm, .mmaz acc k g n hb ha z rm, .mma acc c k n hb ha true rm, .mmaz acc c k n hb ha true rm,
        .mmt acc k g n z ha rm, .twalk acc k g n z kp ha rm, .twres acc k g n z kp ha rm, .rpop k g]
    let unnamed := ∀ m ∈ s.my.mq, ¬ names m
    (unnamed → good → Gives (.rset a k b) s fun t => only t ∧
      t.my.rings = s.my.rings.put k.toNat (Machine.Ring.mk x slotb (f y 6 0) (f y 31 31 == 1) 0 0 0) ∧
        { t.my with rings := s.my.rings } = s.my) ∧
      (MayEnter s s.cur.core s.cur.ctx → unnamed → ¬ good → Gives (.rset a k b) s (Faults s 0x1A 0)) ∧
      (MayEnter s s.cur.core s.cur.ctx → (∃ m ∈ s.my.mq, names m) → good → Gives (.rset a k b) s (Faults s 0x19 0)) ∧
      (∀ r, Tab.find s.my.rings k.toNat = some r → s.my.wb = [] → r.fill + y ≤ r.nslot → Gives (.rpush d k b) s fun t =>
        Tab.find t.my.rings k.toNat = some { r with fill := r.fill + y } ∧ SameMem s t ∧ SameUnits s t ∧ t.cur = s.cur ∧
          SameOtherCores s t s.cur.core ∧ { t.me with g := s.me.g } = s.me ∧
          ∀ i, t.me.readG i = if i = d.toNat ∧ i ≠ 0 then BitVec.ofNat 64 (r.nslot - (r.fill + y)) else s.me.readG i) ∧
      (Tab.find s.my.rings k.toNat = none → MayEnter s s.cur.core s.cur.ctx → Gives (.rpush d k b) s (Faults s 0x1A 0)) ∧
      (x < 2 ^ 48 → y < 2 ^ 32 → Gives (.shp a b n) s fun t => only t ∧ { t.my with shapes := s.my.shapes } = s.my ∧
        t.my.shapes = s.my.shapes.put n.toNat (Shape.mk (f x 7 0) (f x 15 8) (f x 31 16) (f x 47 32) (f y 15 0) (f y 31 16))) ∧
      (MayEnter s s.cur.core s.cur.ctx → (2 ^ 48 ≤ x ∨ 2 ^ 32 ≤ y) → Gives (.shp a b n) s (Faults s 0x1B 0)) ∧
      (s.my.outstanding.length < 31 → Gives .mcommit s fun t => only t ∧
        t.my = { s.my with closed := s.my.outstanding ++ [s.my.openBatch], openBatch := s.my.openBatch + 1 }) ∧
      (s.my.outstanding.length ≤ b.toNat → Gives (.mwait b) s fun t => only t ∧ t.my.closed = s.my.outstanding ∧ t.my.mq = s.my.mq) ∧
      (b.toNat < s.my.outstanding.length → Gives (.mwait b) s fun t =>
        t.me = { s.me with since := some s.now, run := .blocked (.mwait b.toNat s.cur.next s.cur.taken) } ∧ SameMem s t ∧
          SameUnits s t ∧ SameButCtx s t s.cur.core s.cur.ctx)

/-- R238, R244, R249, R257, R259: at the head of the Mill queue, in the turn of its core, an `aclr` writes its value to every element of
its tiles and clears their poison, and an `rpop` frees its slots; a dense command that can start samples FMTA, FMTB, SCLA and SCLB and
takes a slot of its ring; one whose steps are done retires, with its slot popped unless it is held. No memory changes. -/
def Obligations.MillQueueHead : Prop :=
  ∀ (s : State) (k : Nat) (m : Cmd) (rest : List Cmd) (acc ka b : R5) (n : BitVec 3) (hb ha : Bool) (rm : Rm) (r : Ring),
    s.coreStill k = false → (Tab.find (s.core k).holds 1).isSome = false → (s.core k).mq = m :: rest → NoneBlocked s k →
    let x := s.core k
    let v := ((m.vals[0]?).getD 0).toNat
    let out := fun (t : State) => (t.core k).mq = rest ∧ SameMem s t ∧ SameUnitsButTurn s t ∧ SameOtherCores s t k ∧ SameCtxs s t
    let turn := k < 3072 ∧ (s.cluster (clusterOf k)).millP = lcoreOf k
    (m.instr = .aclr acc ka b → turn → x.vq = [] → Gives (.aclrPerform k) s fun t => out t ∧
      (∀ i row, acc.toNat ≤ i → i ≤ acc.toNat + ka.toNat → row < 16 → ∀ j, j < 16 →
        ((t.core k).tileRow i row).extractLsb' (32 * j) 32 = BitVec.ofNat 32 v) ∧
      (∀ i row, (i < acc.toNat ∨ acc.toNat + ka.toNat < i) → row < 16 → (t.core k).tileRow i row = x.tileRow i row) ∧
      ∀ i, i ∈ (t.core k).mstat.pmask ↔ i ∈ x.mstat.pmask ∧ (i < acc.toNat ∨ acc.toNat + ka.toNat < i)) ∧
    (m.instr = .rpop ka b → turn → Tab.find x.rings ka.toNat = some r → v ≤ r.fill - r.taken → Gives (.rpopPerform k) s fun t => out t ∧
      Tab.find (t.core k).rings ka.toNat = some { r with tail := (r.tail + v) % r.nslot, fill := r.fill - v }) ∧
    (m.instr = .mma acc ka b n hb ha false rm → m.started = true → m.mill.finished = true → Tab.find x.rings ka.toNat = some r →
      Gives (.millCommandRetire k) s fun t => out t ∧ SameUnits s t ∧ (t.core k).mstat = { x.mstat with fl := x.mstat.fl.or m.fl } ∧
        Tab.find (t.core k).rings ka.toNat = some (if ha then { r with taken := r.taken - 1 }
          else { r with taken := r.taken - 1, tail := (r.tail + 1) % r.nslot, fill := r.fill - 1 })) ∧
    (m.instr = .mma acc ka b n hb ha false rm → m.started = false → x.vq = [] → Tab.find x.rings ka.toNat = some r → r.taken < r.fill →
      denseStartFault s k (sampleMill x m rm ka.toNat none) ⟨acc.toNat, ka.toNat, none, rm, false, ha, hb, false⟩ = none →
      Gives (.millCommandStart k) s fun t => SameMem s t ∧ SameUnits s t ∧ SameOtherCores s t k ∧ SameCtxs s t ∧
        Tab.find (t.core k).rings ka.toNat = some { r with taken := r.taken + 1 } ∧
        ∃ q, (t.core k).mq = q :: rest ∧ q.instr = m.instr ∧ q.started = true ∧ q.mill.fmtA = x.fmta ∧ q.mill.fmtB = x.fmtb ∧
          q.mill.sclA = x.scla ∧ q.mill.sclB = x.sclb ∧ q.mill.slotA = (r.tail + r.taken) % r.nslot)

/-- R75, R83, R84, R87, R238, R257: a turn of a Mill whose core holds a started i8 product of one block and one K-step: every element of
the block becomes its old value (zero for `mmaz`) plus the sum of the products of its row of A and column of B, as signed bytes of
scratch, saturated to 32 bits; every other element of every tile is as before, and so is memory. How the Mill's turns are counted is the
model's choice (log 34). -/
def Obligations.MillIntegerStep : Prop :=
  ∀ (s : State) (cl j : Nat) (m : Cmd) (rest : List Cmd) (acc ka b : R5) (n : BitVec 3) (hb ha zero : Bool) (rm : Rm) (r : Ring),
    let k := cl * 8 + j
    let x := s.core k
    let h := m.shape
    let d : Dense := ⟨acc.toNat, ka.toNat, none, rm, zero, ha, hb, false⟩
    cl < 384 → j < 8 → s.clusterStill cl = false → (s.cluster cl).millP = j → (s.cluster cl).mweight = [] →
    (Tab.find x.holds 1).isSome = false → x.mq = m :: rest →
    m.instr = (if zero then .mmaz acc ka b n hb ha false rm else .mma acc ka b n hb ha false rm) → m.started = true →
    m.mill.finished = false → m.prog = 0 → fmtTy m.mill.fmtA = .i8 → fmtTy m.mill.fmtB = .i8 → m.mill.sclA = 0 → m.mill.sclB = 0 →
    1 ≤ h.m → h.m ≤ 16 → 1 ≤ h.n → h.n ≤ 16 → 1 ≤ h.ka → h.ka ≤ 32 → Tab.find x.rings ka.toNat = some r →
    m.mill.bookBad = false → rangesFit s k (rangesOf x m d 0 h.m 0 h.n 0 h.ka) = true → s.poison = [] →
    let base := scratchBase (clusterOf k)
    let A := fun (i p : Nat) => (memGet s.mem (base + (r.base + m.mill.slotA * r.slotb) + i * h.astr + p)).toInt
    let B := fun (p q : Nat) => (memGet s.mem (base + ((m.vals[0]?).getD 0).toNat % 2 ^ 22 + p * h.bstr + q)).toInt
    let elem := fun (y : Core) (t i q : Nat) => (y.tileRow t i).extractLsb' (32 * q) 32
    Gives (.millStep cl) s fun t => SameMem s t ∧ SameOtherCores s t k ∧ SameCtxs s t ∧
      (∀ i q, i < h.m → q < h.n → elem (t.core k) acc.toNat i q = BitVec.ofInt 32 (max (-(2 ^ 31)) (min (2 ^ 31 - 1)
        ((if zero then 0 else (elem x acc.toNat i q).toInt) + ((List.range h.ka).map fun p => A i p * B p q).sum)))) ∧
      (∀ u i q, i < 16 → q < 16 → (u ≠ acc.toNat ∨ h.m ≤ i ∨ h.n ≤ q) → elem (t.core k) u i q = elem x u i q) ∧
      ∃ m', (t.core k).mq = m' :: rest ∧ m'.mill.finished = true ∧ m'.instr = m.instr

/-- R238, R266 to R269, R275 to R285, R88: a wave of a walk of one row. A record that names a node beyond the node count is marked faulted
with code 4, and with no row left to walk the command retires. An active row in the integer class, with its node and matrix in scratch and
one walk step to take: a node that is malformed or does not chain faults it with code 3; at a leaf its products go into row 0 of the first
tile, the leaf's id into the leaf-id vector, and its status becomes leaf; at another node SIGN, ARGMAX or THRESH chooses a child of the
products, and the row moves there (and in carry mode becomes its requantised products, in the slot), or faults with code 2 at depth 16 and
with code 1 at a child beyond the node count. No other element of a tile and no other byte of memory changes. Stated in carry mode for a row
at its root, whose width is KA. That a wave takes its effects with the step that ends it is the model's reading (log 34). -/
def Obligations.WalkWave : Prop :=
  (∀ (s : State) (k : Nat) (m : Cmd) (rest : List Cmd) (w : Walk), s.coreStill k = false → NoneBlocked s k →
    (Tab.find (s.core k).holds 1).isSome = false → (s.core k).mq = m :: rest → m.started = true → walkOf m.instr = some w →
    w.trp = false → (classOf (fmtTy m.mill.fmtA) (fmtTy m.mill.fmtB)).isSome = true → m.shape.m = 1 →
    k < 3072 → (s.cluster (clusterOf k)).millP = lcoreOf k → m.mill.steps = 0 →
    m.mill.bookBad = false → rangesFit s k (walkRanges m ++ bookRanges m) = true → s.poison = [] →
    let a := scratchBase (clusterOf k) + m.wsa
    let x := s.readN a 8
    x / 2 ^ 29 % 8 = 0 → x / 2 ^ 24 % 32 ≤ 16 → x.testBit 36 = false → m.nnode ≤ x % 2 ^ 24 →
    Gives (.walkWave k) s fun t => (t.core k).mq = rest ∧ SameMemBut s t a 8 ∧ SameCtxs s t ∧
      (let y := t.readN a 8
       y % 2 ^ 29 = x % 2 ^ 29 ∧ y / 2 ^ 29 % 4 = 2 ∧ y / 2 ^ 32 % 16 = 4 ∧ y / 2 ^ 37 = x / 2 ^ 37)) ∧
  ∀ (s : State) (k : Nat) (m : Cmd) (rest : List Cmd) (w : Walk) (r : Ring), s.coreStill k = false → NoneBlocked s k →
    (Tab.find (s.core k).holds 1).isSome = false → (s.core k).mq = m :: rest → m.started = true → walkOf m.instr = some w →
    fmtTy m.mill.fmtA = .i8 → fmtTy m.mill.fmtB = .i8 → m.shape.m = 1 → k < 3072 → (s.cluster (clusterOf k)).millP = lcoreOf k →
    m.mill.steps = 0 → m.mill.bookBad = false → s.poison = [] → m.wcap = 0 → Tab.find (s.core k).rings w.k = some r →
    let size := scratchPart s k
    let at' := fun (va : Nat) => scratchBase (clusterOf k) + (va - 0x400000)
    let inside := fun (va n : Nat) => 0x400000 ≤ va ∧ va + n ≤ 0x400000 + size
    let rec' := scratchBase (clusterOf k) + m.wsa
    let leaf := scratchBase (clusterOf k) + m.lia
    let row := scratchBase (clusterOf k) + r.base + m.mill.slotA * r.slotb
    let x := s.readN rec' 8
    let node := x % 2 ^ 24
    let depth := x / 2 ^ 24 % 32
    let record := fun (from' choice fcode status depth node : Nat) =>
      node + depth * 2 ^ 24 + status * 2 ^ 29 + fcode * 2 ^ 32 + choice * 2 ^ 37 + from' * 2 ^ 40
    let faulted := fun (choice code : Nat) => record (x / 2 ^ 40) choice code 2 depth node
    let f := fun (off n : Nat) => s.readN (at' (m.gB + 64 * node) + off) n
    let bits := fun (hi lo : Nat) => f 0 4 / 2 ^ lo % 2 ^ (hi + 1 - lo)
    let din := f 4 2
    let dout := f 6 2
    let child := fun (j : Nat) => f (32 + 4 * j) 4
    let rb := (dout + 31) / 32 * 32
    let p := fun (j : Nat) => ((List.range din).map fun i =>
      (memGet s.mem (row + i)).toInt * (memGet s.mem (at' (f 8 8) + rb * i + j)).toInt).sum
    let formed := f 28 4 = 0 ∧ bits 31 14 = 0 ∧ bits 3 3 = 0 ∧ bits 2 1 ≠ 3 ∧ din ≠ 0 ∧ dout ≠ 0 ∧ f 8 8 % 32 = 0 ∧
      if bits 0 0 = 1 then bits 31 1 = 0 ∧ f 16 8 = 0 ∧ (∀ j, j < 8 → child j = 0) ∧ f 24 4 ≠ 0xFFFFFFFF
      else 2 ≤ bits 7 4 ∧ bits 7 4 ≤ 8 ∧ (bits 2 1 ≠ 1 → bits 7 4 = 2) ∧ (bits 2 1 = 1 → bits 7 4 ≤ dout) ∧
        (∀ j, bits 7 4 ≤ j → j < 8 → child j = 0) ∧ f 24 4 = 0 ∧ (bits 2 1 ≠ 2 → f 16 8 = 0) ∧ f 16 8 < 2 ^ 32
    let chained := din = m.shape.ka ∧ (bits 0 0 = 0 → w.keep = false → dout ≤ m.shape.astr) ∧ (bits 0 0 = 1 → dout = m.shape.n)
    let gives := fun (y : Nat) (P : State → Prop) => Gives (.walkWave k) s fun t => SameCtxs s t ∧ SameOtherCores s t k ∧ t.readN rec' 8 = y ∧
      (∃ m', (t.core k).mq = m' :: rest ∧ m'.instr = m.instr ∧ m'.mill.waves = m.mill.waves + 1) ∧ P t
    let still := fun (t : State) => SameMemBut s t rec' 8 ∧ (t.core k).tiles = (s.core k).tiles
    x / 2 ^ 29 % 8 = 0 → depth ≤ 16 → x.testBit 36 = false → node < m.nnode → (x / 2 ^ 40 = 0xFFFFFF ∨ w.keep = true ∧ x / 2 ^ 40 < m.nnode) →
    size ≤ 0x400000 → inside (0x400000 + m.wsa) 8 → inside (0x400000 + m.lia) 4 → inside (m.gB + 64 * node) 64 →
    (m.wsa + 8 ≤ m.lia ∨ m.lia + 4 ≤ m.wsa) →
    (¬ (formed ∧ chained) → gives (faulted (x / 2 ^ 37 % 8) 3) still) ∧
    (formed → chained → din ≤ 32 → dout ≤ 16 → inside (f 8 8) (din * rb) → inside (0x400000 + r.base + m.mill.slotA * r.slotb) din →
      (bits 0 0 = 1 → gives (record (x / 2 ^ 40) (x / 2 ^ 37 % 8) (x / 2 ^ 32 % 16) 1 depth node) fun t => t.readN leaf 4 = f 24 4 ∧
        (∀ a, (a < rec' ∨ rec' + 8 ≤ a) → (a < leaf ∨ leaf + 4 ≤ a) → memGet t.mem a = memGet s.mem a) ∧
        ∀ u i q, i < 16 → q < 16 → ((t.core k).tileRow u i).extractLsb' (32 * q) 32 =
          if u = w.acc ∧ i = 0 ∧ q < dout then BitVec.ofInt 32 (p q) else ((s.core k).tileRow u i).extractLsb' (32 * q) 32) ∧
      (bits 0 0 = 0 → ∀ c,
        (bits 2 1 = 0 → c = if p 0 < 0 then 0 else 1) → (bits 2 1 = 2 → c = if (BitVec.ofNat 32 (f 16 8)).toInt < p 0 then 1 else 0) →
        (bits 2 1 = 1 → c < bits 7 4 ∧ ∀ j, j < bits 7 4 → p j ≤ p c ∧ (j < c → p j < p c)) →
        (depth = 16 → gives (faulted c 2) still) ∧ (depth < 16 → m.nnode ≤ child c → gives (faulted c 1) still) ∧
        (depth < 16 → child c < m.nnode → (row + dout ≤ rec' ∨ rec' + 8 ≤ row) →
          gives (record node c (x / 2 ^ 32 % 16) 0 (depth + 1) (child c)) fun t => (t.core k).tiles = (s.core k).tiles ∧
            (∀ a, (a < rec' ∨ rec' + 8 ≤ a) → (w.keep = true ∨ a < row ∨ row + dout ≤ a) → memGet t.mem a = memGet s.mem a) ∧
            (w.keep = false → ∀ j q, j < dout → (2 * (p j - q * 2 ^ bits 13 8)).natAbs ≤ 2 ^ bits 13 8 →
              ((2 * (p j - q * 2 ^ bits 13 8)).natAbs = 2 ^ bits 13 8 → q % 2 = 0) →
              memGet t.mem (row + j) = BitVec.ofInt 8 (max (-128) (min 127 q))))))

/-! ### Semaphores, the Carter and the carve-out -/

/-- R313, R314: `sacq` takes a unit of a semaphore that has one, and otherwise waits; `srel` adds to a semaphore that can hold the sum,
and raises SEM_OVER for more than 65,535; `sget` reads the semaphore with its sticky bits and may clear them. Memory is as before. That
g0 discards a write is the model's reading (log 6). -/
def Obligations.Semaphores : Prop :=
  ∀ (s : State) (d a : R5) (n : BitVec 7) (sc : Scope), Quiet s →
    let m := s.my.sems.get {} n.toNat
    let j := (s.srcG a).toNat
    let sem := fun (t : State) => t.my.sems.get {} n.toNat
    let value : Word := BitVec.ofNat 64 (m.count + m.xf.toNat * 2 ^ 16 + m.ov.toNat * 2 ^ 17 + m.dev.toNat * 2 ^ 18)
    (m.count ≠ 0 → Gives (.sacq n) s fun t => sem t = { m with count := m.count - 1, dev := m.dev && m.count != 1 } ∧ SameMem s t ∧
        SameCtxs s t ∧ t.cur = s.cur) ∧
      (m.count = 0 → Gives (.sacq n) s (BlocksOn s (.sacq n.toNat))) ∧
      (CleanCaches s → NoneBlocked s s.cur.core → m.count + j ≤ 65535 → Gives (.srel a n sc) s fun t =>
        sem t = { m with count := m.count + j, dev := m.dev || sc == .dev } ∧ SameMem s t ∧ SameCtxs s t ∧ t.cur = s.cur) ∧
      (MayEnter s s.cur.core s.cur.ctx → 65535 < j → Gives (.srel a n sc) s (Faults s 0x22 (BitVec.ofNat 32 n.toNat))) ∧
      Gives (.sget d n false) s (WritesG s d value) ∧
      Gives (.sget d n true) s (fun t => sem t = { m with xf := false, ov := false } ∧ SameMem s t ∧ SameUnits s t ∧ t.cur = s.cur ∧
        { t.me with g := s.me.g } = s.me ∧ ∀ r, t.me.readG r = if r = d.toNat ∧ r ≠ 0 then value else s.me.readG r)

/-- R303, R304: `cpgo` snapshots the copy registers of its context into a copy of the Carter queue and gives its TID, one more than the
last modulo 65,536; a malformed snapshot raises COPY_FORM. Memory is as before. That g0 discards a write is the model's reading (log 6). -/
def Obligations.CopyLaunch : Prop :=
  ∀ (s : State) (d : R5), NoBody s → (∀ e ∈ s.clusters, e.2.ways.change = none) → s.my.cq.length < 16 →
    let r := s.atIssue.cp
    let f := fun (hi lo : Nat) => r.fmt.toNat / 2 ^ lo % 2 ^ (hi + 1 - lo)
    let tid := (s.my.tid + 1) % 65536
    let good := f 3 0 < 14 ∧ f 7 4 < 14 ∧ f 10 8 < 5 ∧
      (f 12 11 ≠ 0 → f 14 14 = 0 ∧ Ty.ofCode (f 7 4) ∈ [Ty.i32, .i64, .n32, .n64, .f64, .f32, .bf16, .f16]) ∧ (f 14 14 = 1 → f 39 16 ≠ 0)
    (good → Gives (.cpgo d) s fun t => SameMem s t ∧ SameUnits s t ∧ SameOtherCores s t s.cur.core ∧ t.cur = s.cur ∧ t.my.tid = tid ∧
        (∃ m, t.my.cq = s.my.cq ++ [m] ∧ m.instr = .cpgo d ∧ m.ctx = s.cur.ctx ∧ m.started = false ∧ m.copy = { regs := r, tid := tid }) ∧
        { t.me with g := s.me.g } = s.me ∧ ∀ i, t.me.readG i = if i = d.toNat ∧ i ≠ 0 then BitVec.ofNat 64 tid else s.me.readG i) ∧
      (¬ good → MayEnter s s.cur.core s.cur.ctx → Gives (.cpgo d) s (Faults s 0x20 0))

/-- R299, R300, R305 to R307: a row of n bytes between two disjoint ranges of the core's own TCM: the destination holds the bytes of the
source, and every other byte is as before. R302, R311, R313: a copy whose rows are done leaves the queue: its flags are ORed into MSTAT
and its semaphore is incremented; with a status record in the core's own TCM the record holds the TID and the STATE first. R178, R183,
R185, R191: the copy moves once the earlier loads, acquires and cache maintenance of the context that pushed it have been performed. That a
row is copied in one step is the model's grain (log 1). -/
def Obligations.CopyEvents : Prop :=
  (∀ (s : State) (k n src dst : Nat) (m : Cmd) (rest : List Cmd), k < 3200 → s.coreStill k = false →
    (Tab.find (s.core k).holds 2).isSome = false → (s.core k).cq = m :: rest → m.started = true → m.copy.rowsDone = false →
    (s.core k).cmdWaits m = false → m.prog = 0 → m.copy.late = [] → s.poison = [] → 1 ≤ n → n < 2 ^ 14 → src + n ≤ 0x1F000 → dst + n ≤ 0x1F000 →
    (src + n ≤ dst ∨ dst + n ≤ src) →
    m.copy.regs = { src := BitVec.ofNat 64 src, dst := BitVec.ofNat 64 dst, shape := [(0, BitVec.ofNat 64 (n * 2 ^ 48))],
                    strs := [(0, 0x00FFFFFF00000001)], strd := [(0, 0x00FFFFFF00000001)], fmt := 0x44 } →
    Gives (.copyRow k) s fun t =>
      (∀ i, i < n → memGet t.mem (tcmBase k + dst + i) = memGet s.mem (tcmBase k + src + i)) ∧ SameMemBut s t (tcmBase k + dst) n ∧
        SameCtxs s t ∧ SameOtherCores s t k ∧ ∃ q, (t.core k).cq = q :: rest ∧ q.copy.rowsDone = true ∧ q.instr = m.instr) ∧
  (∀ (s : State) (k : Nat) (m : Cmd) (rest : List Cmd), k < 3200 → s.coreStill k = false →
    (Tab.find (s.core k).holds 2).isSome = false → (s.core k).cq = m :: rest → m.started = true → m.copy.rowsDone = true →
    (s.core k).cmdWaits m = false → m.copy.bell = none → m.copy.state = 0 → m.copy.tid < 65536 → NoneBlocked s k →
    let f := fun (hi lo : Nat) => m.copy.regs.sem.toNat / 2 ^ lo % 2 ^ (hi + 1 - lo)
    let n := f 63 58
    let a := f 47 5 * 32
    let x := (s.core k).sems.get {} n
    f 57 57 = 0 → x.count < 65535 →
    let ends := fun (t : State) => (t.core k).cq = rest ∧ SameCtxs s t ∧ SameOtherCores s t k ∧
      (t.core k).mstat = { (s.core k).mstat with fl := (s.core k).mstat.fl.or m.fl } ∧
      (t.core k).sems.get {} n = { x with count := x.count + 1, dev := x.dev || m.copy.dev }
    (a = 0 → Gives (.copyComplete k) s fun t => ends t ∧ SameMem s t) ∧
      (a ≠ 0 → a + 32 ≤ 0x1F000 → Gives (.copyComplete k) s fun t => ends t ∧ SameMemBut s t (tcmBase k + a) 32 ∧
        t.readN (tcmBase k + a) 4 = m.copy.tid ∧ t.readN (tcmBase k + a + 4) 4 = 0))

/-- R149, R152, R153: a change of the carve-out that waits for no copy takes effect: the scratch part has the new number of ways, ways
that leave it lose what they held, and ways that join it read zero; no other byte changes. With joining ways it waits for the dirty
lines that the cluster has sent to their homes. A sampling interval that ends sets the target by its counts and clears them. What the
counters do while AUTO is 0 is the model's choice (log 9). -/
def Obligations.CarveOut : Prop :=
  ∀ (s : State) (cl : Nat), s.io.frz = false →
    let w := (s.cluster cl).ways
    let lost := fun (t : State) (lo hi : Nat) => (∀ i, lo * 0x40000 ≤ i → i < hi * 0x40000 → memGet t.mem (scratchBase cl + i) = 0) ∧
      SameMemBut s t (scratchBase cl + lo * 0x40000) ((hi - lo) * 0x40000)
    let clean := ∀ l ∈ (s.cluster cl).cc, l.dirty = []
    let written := ∀ k ∈ coresOf cl, (s.core k).wbOut = 0
    (∀ n, w.change = some n → w.waits = [] →
      (n ≤ w.s → Gives (.wayChangeComplete cl) s fun t => (t.cluster cl).ways.s = n ∧ lost t n w.s) ∧
        (w.s < n → clean → written → Gives (.wayChangeComplete cl) s fun t => (t.cluster cl).ways.s = n ∧ lost t w.s n) ∧
        (w.s < n → clean → ¬ written → Gives (.wayChangeComplete cl) s fun t => (t.cluster cl).ways.s = w.s ∧ SameMem s t)) ∧
      (w.auto = true → Gives (.waySample cl) s fun t => SameMem s t ∧ (t.cluster cl).ways.a = 0 ∧ (t.cluster cl).ways.l = 0 ∧
        (t.cluster cl).ways.g = 0 ∧ (t.cluster cl).ways.s = w.s ∧
        (t.cluster cl).ways.tgt = if w.a < w.g * 32 ∧ w.min < w.s then w.s - 1 else if w.l * 128 < w.a ∧ w.s < w.max then w.s + 1 else w.tgt)

/-! ### Bells, supersteps, collectives -/

/-- R123, R332, R333, R335: `bell` disarms a bell or arms it with the fields of gA, and raises BELL_FORM for a bell that still counts or
a bad field; `bwait` completes at 0 and otherwise waits; `done` gives its message to the target's bell unit, which counts its bell down
for a member. Memory and every register are as before. That `bell` with TGT 0 disarms without a check of the other fields of gA is the
model's choice (log 38). -/
def Obligations.BellsAndDone : Prop :=
  (∀ (s : State) (a : R5) (n : BitVec 7), NoBody s → Quiet s → CleanCaches s → NoneBlocked s s.cur.core →
    let k := s.cur.core
    let g := s.srcG a
    let b := s.my.bells.get {} n.toNat
    let f := fun (hi lo : Nat) => g.toNat / 2 ^ lo % 2 ^ (hi + 1 - lo)
    let fields := 1 ≤ f 18 16 ∧ f 18 16 ≤ 5 ∧ f 31 20 = 0 ∧ f 63 58 = 0 ∧ 1 ≤ f 49 41 ∧ f 40 32 + f 49 41 ≤ 384
    let sets := fun (v : Bell) (t : State) => OnlyCore s t k ∧ t.my = { s.my with bells := s.my.bells.put n.toNat v }
    let plain := fun (t : State) => SameMem s t ∧ SameCtxs s t ∧ t.cur = s.cur
    let told := fun (j : Nat) (t : State) => plain t ∧ ∃ m : Body, m = .done j n.toNat k s.cur.ctx s.now ∧
      (tileOf j = tileOf k → (t.iface (tileOf k)).ctl = (s.iface (tileOf k)).ctl ++ [m]) ∧
      (tileOf j ≠ tileOf k → ∃ e, (t.iface (tileOf k)).out = (s.iface (tileOf k)).out ++ [e] ∧ e.dst = tileOf j ∧ e.body = m)
    (f 15 0 = 0 → Gives (.bell a n) s (sets {})) ∧
      (f 15 0 ≠ 0 → (b.armed = false ∨ b.count = 0) → fields → Gives (.bell a n) s (sets
        (Bell.mk (f 15 0) (f 15 0) true (Scope.ofCode (f 18 16)) (f 19 19 == 1) (f 40 32) (f 49 41) (f 57 50)))) ∧
      (f 15 0 ≠ 0 → (b.armed = true ∧ b.count ≠ 0 ∨ ¬ fields) → MayEnter s k s.cur.ctx → Gives (.bell a n) s (Faults s 0x29 0)) ∧
      (b.armed = true → b.count = 0 → Gives (.bwait n) s plain) ∧
      (b.armed = true → b.count ≠ 0 → Gives (.bwait n) s (BlocksOn s (.bwait n.toNat))) ∧
      (b.armed = false → MayEnter s k s.cur.ctx → Gives (.bwait n) s (Faults s 0x29 0)) ∧
      (a = 0 → Gives (.done a n) s (told k)) ∧
      (a ≠ 0 → f 63 12 = 0 → f 8 0 < 384 → (s.cluster (clusterOf k)).computePhase = false →
        Gives (.done a n) s (told (f 8 0 * 8 + f 11 9))) ∧
      (a ≠ 0 → (f 63 12 ≠ 0 ∨ 384 ≤ f 8 0) → MayEnter s k s.cur.ctx → Gives (.done a n) s (Faults s 0x0C 0))) ∧
  (∀ (s : State) (j n sender c st : Nat) (rest : List Body), s.tileStopped (tileOf j) = false → NoneBlocked s j →
    (s.iface (tileOf j)).ctl = .done j n sender c st :: rest →
    let v := (s.core j).bells.get {} n
    v.armed = true → v.count ≠ 0 → sender < 3072 → v.mbase ≤ sender / 8 → sender / 8 < v.mbase + v.mcnt →
    v.cmask.testBit (sender % 8) = true →
    Gives (.doneArrival j) s fun t => SameMem s t ∧ SameCtxs s t ∧ t.cur = s.cur ∧ (t.iface (tileOf j)).ctl = rest ∧
      (t.core j).bells.get {} n = { v with count := v.count - 1 })

/-- R320 to R322: `sstep` blocks its context; once every live context of a domain of one cluster is blocked in it, all of them go on,
and in a bulk-synchronous domain the phase turns: into an exchange phase at cycle 0, or out of one whose packets are done. -/
def Obligations.Supersteps : Prop :=
  (∀ s : State, Quiet s → CleanCaches s → Gives .sstep s fun t =>
    t.me = { s.me with run := .blocked .sstep } ∧ SameMem s t ∧ (∀ k c, (k ≠ s.cur.core ∨ c ≠ s.cur.ctx) → t.ctx k c = s.ctx k c) ∧
      t.cur = { s.cur with out := .block }) ∧
  (∀ (s : State) (cl : Nat), cl < 384 → s.clusterStill cl = false → domainOfCluster s cl = [cl] → liveContexts s cl ≠ [] →
    (∀ e ∈ liveContexts s cl, (s.ctx e.1 e.2).run = .blocked .sstep) → (s.cluster cl).domainPend = none →
    let d := (s.cluster cl).domain
    let bulk := d.mode.testBit d.level
    let p := (s.cluster cl).phase
    let goes := fun (t : State) => SameMem s t ∧
      (∀ e ∈ liveContexts s cl, t.ctx e.1 e.2 =
        { (s.leave e.1 e.2 ((s.ctx e.1 e.2).pc + 1) false).ctx e.1 e.2 with run := .ready, since := none }) ∧
      ∀ k c, (k, c) ∉ liveContexts s cl → t.ctx k c = s.ctx k c
    (bulk = false → Gives (.superstepComplete cl) s fun t => goes t ∧ (t.cluster cl).phase = p) ∧
      (bulk = true → p.xp = false → (s.cluster cl).gathers = [] → Gives (.superstepComplete cl) s fun t =>
        goes t ∧ (t.cluster cl).phase.xp = true ∧ (t.cluster cl).phase.cur = 0) ∧
      (bulk = true → p.xp = true → (s.cluster cl).table = [] → (s.cluster cl).gathers = [] →
        (∀ k ∈ coresOf cl, ∀ m ∈ (s.core k).xq, m.stamp < p.begun) → (∀ q ∈ lanePackets s, q.src ≠ cl ∧ q.dst ≠ cl) →
        Gives (.superstepComplete cl) s fun t => goes t ∧ (t.cluster cl).phase.xp = false ∧ (t.cluster cl).phase.cur = 0))

/-- R328: in an exchange phase `xsend` and `greq` claim the entry of the slot table that gD names and enter the exchange queue; outside
one they raise PHASE. Stated for data in the core's TCM, and R329 to R331: the packet leaves at its slot with the bytes of scratch or
TCM, and a send's bytes and a gather's values are written at their destination, in queue order after the earlier sends of their core
(R195) and loads of their context (R185); a request is kept by its owner. That a packet is at its destination's cluster in the step that
emits it is the model's grain (log 8), and that sends leave by their slots is its reading (log 37). -/
def Obligations.ExchangeLane : Prop :=
  (∀ (s : State) (d a b : R5) (e : SlotEntry), s.cur.core < 3072 → NoBody s → s.my.wb = [] → s.my.ops = [] → s.my.xq.length < 16 →
    let cl := clusterOf s.cur.core
    let c := s.cluster cl
    let f := fun (r : R5) (hi lo : Nat) => (s.srcG r).toNat / 2 ^ lo % 2 ^ (hi + 1 - lo)
    let ready := c.domain.mode.testBit c.domain.level = true ∧ c.phase.xp = true
    let claims := fun (i : Instr) => Gives i s fun t => SameMem s t ∧ SameCtxs s t ∧ t.cur = s.cur ∧
      (∃ m, t.my.xq = s.my.xq ++ [m] ∧ m.instr = i ∧ m.ctx = s.cur.ctx ∧ m.vals = [s.srcG a, s.srcG b, s.srcG d] ∧ m.slot = e.slot ∧
        m.dst = e.dst ∧ m.prog = 0 ∧ m.flt = none) ∧
      (t.cluster cl).table = c.table.map fun x => if x = e then { x with taken := true } else x
    let entry := fun (n : Nat) => e ∈ c.table ∧ (∀ x ∈ c.table, x.slot = e.slot → x = e) ∧ e.kind = 0 ∧ e.slot = f d 15 0 ∧
      e.taken = false ∧ c.phase.cur + 4 ≤ e.slot ∧ 32 + n ≤ 64 * e.beats ∧ (s.srcG a).toNat % 4 = 0 ∧ n % 4 = 0 ∧ f b 21 0 % 4 = 0 ∧
      f b 53 32 % 4 = 0 ∧ (s.srcG a).toNat + n ≤ 0x20000
    (ready → f d 24 16 ≤ 256 → f d 63 25 = 0 → f b 63 22 = 0 → entry (f d 24 16) → claims (.xsend d a b)) ∧
      (ready → 1 ≤ f d 22 16 → f d 22 16 ≤ 64 → f d 26 24 ≤ 4 → f d 23 23 = 0 → f d 63 27 = 0 → f b 31 22 = 0 → f b 63 54 = 0 →
        f d 22 16 * (4 * 2 ^ f d 26 24) ≤ 256 → entry (4 * f d 22 16) → claims (.greq d a b)) ∧
      (¬ ready → MayEnter s s.cur.core s.cur.ctx → Gives (.xsend d a b) s (Faults s 0x16 0) ∧ Gives (.greq d a b) s (Faults s 0x16 0))) ∧
  (∀ (s : State) (cl : Nat), cl < 384 → s.clusterStill cl = false → (s.cluster cl).phase.xp = true → s.poison = [] →
    (∀ j, j ≠ cl → (s.cluster j).phase.xp = false) → s.net.failedLinks = [] → s.net.failedRouters = [] → (∀ r, (s.router r).down = 0) →
    Reachable s →
    let sent := fun (p : LanePkt) (t : State) => SameMem s t ∧ SameCtxs s t ∧ (t.cluster p.dst).lane = (s.cluster p.dst).lane ++ [p]
    (∀ (k : Nat) (m : Cmd) (d a b : R5) (x y z : Word), k ∈ coresOf cl → (∀ j ∈ coresOf cl, j ≠ k → (s.core j).xq = []) →
      (s.core k).xq = [m] → m.flt = none → m.vals = [x, y, z] → ownSendOut s k m.stamp = false → m.slot ≤ (s.cluster cl).phase.cur →
      let f := fun (v : Word) (hi lo : Nat) => v.toNat / 2 ^ lo % 2 ^ (hi + 1 - lo)
      let p : Nat → LanePkt := fun n =>
        { src := cl, dst := m.dst, core := k, ctx := m.ctx, stamp := m.stamp, slot := m.slot, off := f y 21 0, obase := f y 53 32,
          esz := f z 26 24, data := s.read (tcmBase k + x.toNat) n }
      (m.instr = .xsend d a b → x.toNat + f z 24 16 ≤ 0x20000 → Gives (.xsendEmit cl) s fun t =>
          sent (p (f z 24 16)) t ∧ (t.core k).xq = []) ∧
        (m.instr = .greq d a b → x.toNat + 4 * f z 22 16 ≤ 0x20000 → Gives (.xsendEmit cl) s fun t =>
          sent { p (4 * f z 22 16) with request := true } t ∧ (t.core k).xq = [])) ∧
    (∀ (g : Gather) (v : List Byte), (s.cluster cl).gathers = [g] → g.values = some v → g.req.slot ≤ (s.cluster cl).phase.cur →
      Gives (.gatherReplyEmit cl) s fun t => (t.cluster cl).gathers = [] ∧
        sent { g.req with src := cl, dst := g.req.src, request := false, reply := true, data := v, zeros := g.zeros } t)) ∧
  (∀ (s : State) (cl : Nat) (p : LanePkt) (rest : List LanePkt), s.tileStopped cl = false → (s.cluster cl).lane = p :: rest →
    let fits := p.off + p.data.length ≤ (s.cluster cl).ways.s * 0x40000
    let lands := fun (t : State) => t.read (scratchBase cl + p.off) p.data.length = p.data ∧
      SameMemBut s t (scratchBase cl + p.off) p.data.length ∧ SameCtxs s t ∧ (t.cluster cl).lane = rest
    (p.request = false → p.reply = false → (p.data = [] ∨ fits) → mayLand s p = true → Gives (.xsendDelivery cl) s lands) ∧
      (p.request = true → (s.cluster cl).gathers.length < 256 → Gives (.gatherRequestArrival cl) s fun t =>
        SameMem s t ∧ SameCtxs s t ∧ (t.cluster cl).lane = rest ∧ (t.cluster cl).gathers = (s.cluster cl).gathers ++ [Gather.mk p none 0]) ∧
      (p.reply = true → p.data.length % (4 * 2 ^ p.esz) = 0 → fits → mayLand s p = true → Gives (.gatherReplyDelivery cl) s fun t =>
        lands t ∧ (t.cluster cl).phase.gerr = ((s.cluster cl).phase.gerr || p.zeros != 0)))

/-- R336: a collective enters the exchange queue while it has room; a reserved bit of gA raises COLL_FORM and a misaligned record ALIGN.
R337, R338: at the head of the queue it reads its record and its group and opens a gathering; a member reads what it contributes, takes
what the others contributed (stated for an all-gather of two), and leaves the queue once all are done, with its semaphore incremented.
R178, R185, R191, R195: it starts once the earlier sends of its core are written and the acquires and the cache maintenance of its context are
performed, and writes once its loads are too. That a collective starts at the head of its queue, and the steps its members take, are the
model's choices (log 39). -/
def Obligations.Collectives : Prop :=
  (∀ (s : State) (a b : R5) (op : BitVec 2) (t : Ty), NoBody s → (s.cluster (clusterOf s.cur.core)).computePhase = false →
    s.my.xq.length < 16 →
    let x := s.srcG a
    let y := s.srcG b
    let is := fun (i : Instr) =>
      (x.toNat < 128 → y.toNat % 32 = 0 → Gives i s (Queues (fun z => z.xq) (fun m => m.vals = [x, y]) s i)) ∧
        (MayEnter s s.cur.core s.cur.ctx → 128 ≤ x.toNat → y.toNat % 32 = 0 → Gives i s (Faults s 0x2B 0)) ∧
        (MayEnter s s.cur.core s.cur.ctx → x.toNat < 128 → y.toNat % 32 ≠ 0 → Gives i s (Faults s 0x03 0))
    is (.collBar a b) ∧ is (.collAg a b) ∧ is (.collRs a b op t) ∧ is (.collA2a a b)) ∧
  (∀ (s : State) (k : Nat) (m : Cmd) (rest : List Cmd) (a b : R5) (op : BitVec 2) (ty : Ty) (x y : Word), k < 3072 →
    s.coreStill k = false → (Tab.find (s.core k).holds 3).isSome = false → (s.core k).xq = m :: rest → s.poison = [] → Reachable s →
    (m.instr = .collBar a b ∨ m.instr = .collAg a b ∨ m.instr = .collRs a b op ty ∨ m.instr = .collA2a a b) → m.vals = [x, y] →
    (m.started = false → sendsOut s k m.stamp = false → (s.core k).cmdReadWaits m = false → y.toNat + 64 ≤ 0x20000 → s.gatherings = [] →
      let f := fun (o n : Nat) => s.readN (tcmBase k + y.toNat + o) n
      2 ≤ f 0x18 4 → f 0x18 4 ≤ 384 → f 0x20 8 + 4 * f 0x18 4 ≤ 0x20000 →
      Gives (.collectiveStart k) s fun t => SameMem s t ∧ SameCtxs s t ∧ (t.core k).xq = { m with started := true } :: rest ∧
        ∃ c, t.gatherings = [Gathering.mk (s.cluster (clusterOf k)).part (f 0x28 4) (f 0x18 4) [c] false] ∧ c.core = k ∧ c.ctx = m.ctx ∧
          c.instr = m.instr ∧ c.src = f 0 8 ∧ c.dst = f 8 8 ∧ c.bytes = f 0x10 8 ∧ c.rank = f 0x1C 4) ∧
    (∀ (g : Gathering) (c e : Coll), m.started = true → s.gatherings = [g] → g.closed = true → g.members = [c, e] → c.core = k →
      c.stamp = m.stamp → e.core ≠ k → c.nmem = 2 → c.rank = 0 → e.rank = 1 → c.instr = .collAg a b →
      let away := fun (p n : Nat) => p + n ≤ 0x1F000
      (c.stage = 0 → away c.src c.bytes → Gives (.collectiveComplete k) s fun t => SameMem s t ∧ SameCtxs s t ∧
        t.gatherings = [{ g with members := [{ c with stage := 1, data := s.read (tcmBase k + c.src) c.bytes }, e] }]) ∧
      (c.stage = 1 → (s.core k).cmdWaits m = false → e.stage ≠ 0 → c.data.length = c.bytes → e.data.length = c.bytes → away c.dst (2 * c.bytes) →
        Gives (.collectiveComplete k) s fun t => t.read (tcmBase k + c.dst) (2 * c.bytes) = c.data ++ e.data ∧
          SameMemBut s t (tcmBase k + c.dst) (2 * c.bytes) ∧ SameCtxs s t ∧
          ∃ c', t.gatherings = [{ g with members := [c', e] }] ∧ c'.stage = 2) ∧
      (c.stage = 2 → 2 ≤ e.stage → NoneBlocked s k → x.toNat < 64 → ((s.core k).sems.get {} x.toNat).count < 65535 →
        Gives (.collectiveComplete k) s fun t => (t.core k).xq = rest ∧ SameMem s t ∧ SameCtxs s t ∧
          ((t.core k).sems.get {} x.toNat).count = ((s.core k).sems.get {} x.toNat).count + 1)))

/-! ### The Gleaner -/

/-- R418: `glset`, by a context that may own the Gleaner, declares what its registers say when it is inside the limits; else it raises
GL_UNDECLARED. R420: `glrun` clears the map bits of the region and begins a loop of n iterations from the highest index down, with the
index in g30, or passes over the body when n is 0; R430: the accesses of a loop that a handler begins are not checked before `eret`. R419: `glend` by the owner gives the counters and frees the Gleaner. That g0 discards
a write is the model's reading (log 6). -/
def Obligations.GleanerLoop : Prop :=
  ∀ (s : State) (d a b : R5) (len : BitVec 9),
    let c := s.cur.ctx
    let k := s.cur.core
    let g := s.my.gl
    let f := fun (r : R5) (hi lo : Nat) => (s.srcG r).toNat / 2 ^ lo % 2 ^ (hi + 1 - lo)
    let n : Gleaner :=
      { g with own := c, decl := true, base := (s.srcG a).toNat, ncell := f b 22 0, csz := f b 25 24, map := f b 53 32, pbase := f d 16 0,
               plen := f d 48 32 }
    let last : PC := s.cur.pc + BitVec.ofNat 13 len.toNat
    let begun : Gleaner := { g with skips := 0, supp := 0, start := s.cur.pc + 1, last := last }
    let map := scratchBase (clusterOf k) + g.map
    let bit := fun (t : State) (i : Nat) => (memGet t.mem (map + i / 8)).getLsbD (i % 8)
    let cleared := fun (t : State) => SameMemBut s t map ((g.ncell + 7) / 8) ∧ SameUnits s t ∧ SameOtherCores s t k ∧
      (∀ i, i < g.ncell → bit t i = false) ∧ ∀ i, g.ncell ≤ i → bit t i = bit s i
    let regs := fun (t : State) (r : Nat) (v : Word) => { t.me with g := s.me.g } = s.me ∧
      ∀ i, t.me.readG i = if i = r ∧ i ≠ 0 then v else s.me.readG i
    (g.run = false → (g.own = 15 ∨ g.own = c) → glFits k n (s.srcG d) (s.srcG b) = true → canonical (s.srcG a).toNat = true →
      mapBeyond s k n = false → Gives (.glset d a b) s fun t => OnlyCore s t k ∧ t.my = { s.my with gl := n }) ∧
      ((g.run = true ∨ (g.own ≠ 15 ∧ g.own ≠ c) ∨ glFits k n (s.srcG d) (s.srcG b) = false) → MayEnter s k c →
        Gives (.glset d a b) s (Faults s 0x38 0)) ∧
      (s.me.ls.act = false → g.run = false → g.own = c → g.decl = true → mapBeyond s k g = false → f a 31 0 ≠ 0 →
        Gives (.glrun a len) s fun t => cleared t ∧ t.cur = s.cur ∧ regs t 30 (BitVec.ofNat 64 (f a 31 0 - 1)) ∧
          t.my.gl = { begun with run := true, idx := f a 31 0 - 1, foot := false, cover := [],
                                 suspended := g.suspended || !s.me.handler.isEmpty }) ∧
      (s.me.ls.act = false → g.run = false → g.own = c → g.decl = true → mapBeyond s k g = false → f a 31 0 = 0 →
        Gives (.glrun a len) s fun t => cleared t ∧ t.cur = { s.cur with next := last + 1, taken := false } ∧ t.me = s.me ∧
          t.my.gl = begun) ∧
      ((s.me.ls.act = true ∨ g.run = true) → MayEnter s k c → Gives (.glrun a len) s (Faults s 0x08 0)) ∧
      (g.own = c → Gives (.glend d) s fun t => SameMem s t ∧ SameUnits s t ∧ t.cur = s.cur ∧
        regs t d.toNat (BitVec.ofNat 64 (g.skips + g.supp * 2 ^ 32)) ∧ t.my.gl.own = 15 ∧ t.my.gl.decl = false ∧ t.my.gl.run = false) ∧
      (g.own ≠ c → Gives (.glend d) s (WritesG s d 0))

/-- R423: a footprint in an iteration that has none, of cells in the region, is declared with the map bits of its cells; when all of
them are set, the iteration is skipped: the loop goes on at START with the next index in g30, or ends after the index 0. R421: so does
`glnext` at the end of the body. R421, R422: a bundle of the body whose C slot holds a form that a body may not hold, a `glnext` before
END, or another form than `glnext` at END, does not issue and raises REP_FORM. -/
def Obligations.GleanerIterations : Prop :=
  (∀ (s : State) (w0 : Nat) (i : Instr) (d a b : R5) (m : BitVec 10) (n : BitVec 7) (w : BitVec 4) (disp : BitVec 14) (tgt : BitVec 13)
    (sc : Scope), s.me.sup = true → s.me.ls.act = false → MayEnter s s.cur.core s.cur.ctx →
    let g := s.my.gl
    s.cur.glAt = some g → g.run = true → g.suspended = false → g.own = s.cur.ctx → (s.cur.pc - g.start).toNat ≤ (g.last - g.start).toNat →
    (i ∈ [Instr.call disp, .callr a, .jr a, .ret, .loop a n, .rep a w n, .eret, .glset d a b, .glend d, .start w a tgt, .join m, .hend,
        .tend a, .wfi, .spawn d a b, .gang d a b, .sstep, .save d a b, .saveRes d a b, .rest d a b, .curf d a b, .tlbinv d a n sc] ∨
      (i = .glnext ∧ s.cur.pc ≠ g.last) ∨ (i ≠ .glnext ∧ s.cur.pc = g.last)) →
    ∃ t, issueBundle s.cur.core s.cur.ctx w0 ⟨i, none⟩ s = .next t ∧ Faults s 0x09 0 t) ∧
  ∀ (s : State) (a : R5) (n : BitVec 4), Quiet s → s.my.gl.run = true → s.my.gl.own = s.cur.ctx →
    let k := s.cur.core
    let g := s.my.gl
    let bit := fun (i : Nat) => (memGet s.mem (scratchBase (clusterOf k) + g.map + i / 8)).getLsbD (i % 8)
    let only := fun (t : State) => SameMem s t ∧ SameUnits s t ∧ SameOtherCores s t k ∧ ∀ c, c ≠ s.cur.ctx → t.ctx k c = s.ctx k c
    let footed : Cur := { s.cur with footed := true }
    let turns := fun (u : Cur) (t : State) => only t ∧ t.my.gl.foot = false ∧
      (g.idx = 0 → t.my.gl.run = false ∧ t.cur = { u with next := g.last + 1, taken := false } ∧ t.me = s.me) ∧
      (g.idx ≠ 0 → t.my.gl.run = true ∧ t.my.gl.idx = g.idx - 1 ∧ t.cur = { u with next := g.start, taken := false } ∧
        { t.me with g := s.me.g } = s.me ∧ ∀ i, t.me.readG i = if i = 30 then BitVec.ofNat 64 (g.idx - 1) else s.me.readG i)
    let foot := fun (i : Instr) (cell : Nat → Nat) =>
      let cells := (List.range (n.toNat + 1)).map cell
      (g.foot = false → (∀ x ∈ cells, x < g.ncell) → (∃ x ∈ cells, bit x = false) → Gives i s fun t =>
          only t ∧ t.me = s.me ∧ t.cur = footed ∧ t.my.gl.foot = true ∧ ∀ x v, (x, v) ∈ t.my.gl.cover ↔ x ∈ cells ∧ v = bit x) ∧
        (g.foot = false → (∀ x ∈ cells, x < g.ncell) → (∀ x ∈ cells, bit x = true) → g.skips < 2 ^ 32 - 1 → Gives i s fun t =>
          turns footed t ∧ t.my.gl.skips = g.skips + 1) ∧
        ((g.foot = true ∨ ∃ x ∈ cells, g.ncell ≤ x) → MayEnter s k s.cur.ctx → Gives i s (Faults s 0x38 0))
    foot (.glfoot a n) (fun j => (s.atIssue.readG (a.toNat + j)).toNat) ∧
      foot (.glfootV a n) (fun j => ((s.me.readV a.toNat).extractLsb' (32 * j) 32).toNat) ∧
      (s.cur.pc = g.last → g.foot = true → Gives .glnext s (turns s.cur)) ∧
      (s.cur.pc ≠ g.last → MayEnter s k s.cur.ctx → Gives .glnext s (Faults s 0x09 0)) ∧
      (s.cur.pc = g.last → g.foot = false → MayEnter s k s.cur.ctx → Gives .glnext s (Faults s 0x38 0))

/-! ### The open plane -/

/-- R344 to R352: a message is injected with its age; a packet advances to the next router of its route, or into the interface of its
destination; one that has waited too long is a suspect, which the Lantern moves into the Byway, and the Byway into the reserved slot of
its destination; an interface delivers a message whose turn has come and acknowledges it; the acknowledgement opens the window of its
pair. Stated where nothing has failed. R355, R356: retries, failed links and failed routers. R360, R361: the counters SUSP, CAPT, BYEJ
and RETRY. Memory is as before. The room of a buffer and the order of its packets are the model's choices (log 14); that an
acknowledgement opens the window number by number, and what is lost with a failed router, are its readings (log 41). -/
def Obligations.OpenPlane : Prop :=
  ∀ (s : State) (r port rail : Nat) (q : Pkt) (m : Msg) (rest : List Msg), s.io.frz = false → r < 520 →
    let alive := s.net.failedLinks = [] ∧ s.net.failedRouters = [] ∧ s.net.knownLinks = [] ∧ s.net.knownRouters = [] ∧
      ∀ t, (s.router t).down = 0
    let P := s.router r
    let pair := fun (t : State) (a b : Nat) (sp : Nat) => t.net.pairs.get {} ((a * 520 + b) * 2 + sp)
    let sp := if m.cls = .reply then 1 else 0
    let count := fun (x : Nat) => if 65535 ≤ x + 1 then 65535 else x + 1
    let idle := ∀ x ∈ s.reeve.recs, x.state ≠ .running
    (P.spill = [] → (s.iface r).out = m :: rest → (∀ a c, m.body ≠ .ack a c) → s.tileHalting m.src = false → s.tileHalting m.dst = false →
      m.seq < (pair s m.src m.dst sp).acked + 64 → hasRoom P 8 m.cls = true →
      Gives (.packetInject r) s fun t => SameMem s t ∧ (t.iface r).out = rest ∧ t.net.pairs = s.net.pairs ∧
        ∃ p, (t.router r).pkts = P.pkts ++ [p] ∧ p.port = 8 ∧ p.suspect = false ∧ p.msg = { m with age := s.tower.toNat }) ∧
      (alive → P.pkts = [q] → q.port = port → q.rail = rail → q.msg.dst = r → Gives (.packetHop r port rail) s fun t =>
        SameMem s t ∧ (t.router r).pkts = [] ∧ (t.iface r).inbox = (s.iface r).inbox ++ [q.msg]) ∧
      (∀ p u, alive → P.pkts = [q] → q.port = port → q.rail = rail → neighbour r p = some u → q.msg.dst = u → (s.router u).pkts = [] →
        Gives (.packetHop r port rail) s fun t => SameMem s t ∧ (t.router r).pkts = [] ∧
          ∃ x, (t.router u).pkts = [x] ∧ x.msg = q.msg ∧ x.suspect = false) ∧
      (P.pkts = [q] → q.port = port → q.rail = rail → q.suspect = false → Gives (.packetSuspect r port rail) s fun t =>
        SameMem s t ∧ t.router r = { P with pkts := [{ q with suspect := true }], susp := count P.susp }) ∧
      (s.net.byway = none → P.pkts = [q] → q.suspect = true → (∀ j, j ≠ r → (s.router j).pkts = []) → (s.router q.msg.dst).reserved = none →
        Gives .lanternCapture s fun t => SameMem s t ∧ t.net.byway = some (r, q.msg) ∧
          t.router r = { P with pkts := [], capt := count P.capt }) ∧
      (s.net.byway = some (r, m) → s.net.failedRouters = [] → bywayReaches s m.dst 520 [] r = true → Gives .bywayEject s fun t => SameMem s t ∧ t.net.byway = none ∧
        t.net.lantern = (s.net.lantern + 1) % 520 ∧
        t.router m.dst = { s.router m.dst with reserved := some m, byej := count (s.router m.dst).byej }) ∧
      (P.reserved = none → (s.iface r).inbox = m :: rest → m.dst = r → s.tileStopped m.src = false → s.tileStopped m.dst = false →
        m.seq = (pair s m.src r sp).deliver → (pair s m.src r sp).lost = [] →
        let acked := fun (t : State) => SameMem s t ∧ (t.iface r).inbox = rest ∧
          pair t m.src r sp = { pair s m.src r sp with deliver := (pair s m.src r sp).deliver + 1 } ∧
          ∃ e, (t.iface r).out = (s.iface r).out ++ [e] ∧ e.dst = m.src ∧ e.body = .ack sp m.seq
        (∀ a, m.body = .access a → Gives (.packetDeliver r) s fun t => acked t ∧ (t.iface r).arr = (s.iface r).arr ++ [a]) ∧
          (∀ k n j c e, m.body = .done k n j c e → Gives (.packetDeliver r) s fun t =>
            acked t ∧ (t.iface r).ctl = (s.iface r).ctl ++ [m.body])) ∧
      (∀ a n, (s.iface r).acks = m :: rest → m.body = .ack a n →
        let p := pair s r m.src a
        p.early = [] → Gives (.ackArrival r) s fun t => SameMem s t ∧ (t.iface r).acks = rest ∧
          pair t r m.src a = if n = p.acked then { p with acked := n + 1 } else if p.acked < n then { p with early := [n] } else p) ∧
      (idle → linkLive s r port = true → Gives (.linkRetry r port) s fun t => SameMem s t ∧
        (t.router r).retry = (if 2 ^ 24 - 1 ≤ P.retry + 1 then 2 ^ 24 - 1 else P.retry + 1) ∧
        (P.runs.get 0 port + 1 < 16 → t.net.failedLinks = s.net.failedLinks) ∧
        (16 ≤ P.runs.get 0 port + 1 → t.net.failedLinks = s.net.failedLinks ++ [(r, port)])) ∧
      Gives (.routeTableRecompute r port) s (fun t => SameMem s t ∧ ((r, port) ∈ t.net.knownLinks ↔ linkFailed s r port = true)) ∧
      (idle → r ∉ s.net.failedRouters → Gives (.routerFail r) s fun t => SameMem s t ∧ r ∈ t.net.failedRouters ∧ (t.router r).pkts = [] ∧
        (t.router r).reserved = none ∧ (t.iface r).inbox = [] ∧ ∀ j, j ≠ r → (t.router j).pkts = (s.router j).pkts)

/-! ### Tasks -/

/-- R364, R365, R373: `spawn` and `gang` accept a good launch record of their kind: the record gets the next ticket and stands queued,
its status record says STATE 0, and gD is the ticket. R374, R375: `tlate` gives the ticks left to the deadline of the issuing task, and
`tlate.set` gives them and then sets the deadline. The faults of R373 and R375 are raised where the operands ask for them. That g0
discards a write is the model's reading (log 6); how the addresses of a record are translated, and what `tlate` gives on a core without a
task, are its choices (log 31). -/
def Obligations.TaskInstructions : Prop :=
  ∀ (s : State) (d a b : R5),
    let k := s.cur.core
    let cl := clusterOf k
    let x := (s.srcG a).toNat
    let y := (s.srcG b).toNat
    let regs := fun (t : State) (v : Word) => { t.me with g := s.me.g } = s.me ∧
      ∀ i, t.me.readG i = if i = d.toNat ∧ i ≠ 0 then v else s.me.readG i
    let good := k < 3072 ∧ x % 32 = 0 ∧ (y = 2 ^ 63 ∨ y < 2 ^ 32)
    let accepts := fun (i : Instr) (kind : Nat) => good → Quiet s → CleanCaches s → x + 128 ≤ 0x20000 → s.poison = [] →
      Reachable s → Settled s →
      let bs := s.read (tcmBase k + x) 128
      let r := parseRecord bs (dieOf k) (s.cluster cl).part false (some cl)
      ∀ pa, recordOk bs = true → r.kind = kind → recFits s r = true → poolTakes s r.die = true → recAddr s (some cl) true r.status = .ok pa →
        Gives i s fun t => regs t (BitVec.ofNat 64 s.reeve.ticket) ∧ SameMemBut s t pa 32 ∧ t.readN pa 8 = 0 ∧
          t.readN (pa + 16) 8 = s.tower.toNat ∧ t.reeve.ticket = nextTicket s.reeve.ticket ∧
          ∃ q, t.reeve.recs = s.reeve.recs ++ [q] ∧
            q = { r with
              ticket := s.reeve.ticket, age := s.tower.toNat, state := .queued
              consumer := if y = 0 then none else if y = 2 ^ 63 then s.my.task
                else if y = s.reeve.ticket ∨ (s.rec? y).isSome then some y else none }
    let bad := fun (i : Instr) => MayEnter s k s.cur.ctx →
      (3072 ≤ k → Gives i s (Faults s 0x32 0)) ∧ (k < 3072 → x % 32 ≠ 0 → Gives i s (Faults s 0x03 0)) ∧
        (k < 3072 → x % 32 = 0 → ¬ (y = 2 ^ 63 ∨ y < 2 ^ 32) → Gives i s (Faults s 0x30 0))
    let late := fun (r : TaskRec) =>
      BitVec.ofNat 64 (r.late.toNat * 2 ^ 63 + r.hasdl.toNat * 2 ^ 62 +
        if r.hasdl then min (BitVec.ofNat 48 r.deadline - s.tower.setWidth 48).toInt.toNat (2 ^ 47 - 1) else 2 ^ 47 - 1)
    let f := fun (hi lo : Nat) => x / 2 ^ lo % 2 ^ (hi + 1 - lo)
    accepts (.spawn d a b) 0 ∧ accepts (.gang d a b) 1 ∧ bad (.spawn d a b) ∧ bad (.gang d a b) ∧
      (∀ n r, s.my.task = some n → s.rec? n = some r → Gives (.tlate d) s (WritesG s d (late r)) ∧
        (f 62 48 = 0 →
          let r' : TaskRec := if f 63 63 = 1 then { r with hasdl := false, deadline := 2 ^ 48 - 1 }
            else { r with hasdl := true, deadline := f 47 0 }
          Gives (.tlateSet d a) s fun t => regs t (late r) ∧ SameMem s t ∧ SameOtherCores s t k ∧ t.rec? n = some r')) ∧
      (s.my.task = none → Gives (.tlate d) s (WritesG s d (BitVec.ofNat 64 (2 ^ 47 - 1)))) ∧
      (f 62 48 ≠ 0 → MayEnter s k s.cur.ctx → Gives (.tlateSet d a) s (Faults s 0x34 0))

/-- R363 to R371, R374: a host queue's next record is accepted; the oldest spilled record moves into the pool; a record of one core is
placed on the lowest core of an empty cluster, or on its Granary, with its image in the instruction store and its registers set; a task
past its deadline is marked late. How the addresses of a record are translated, and that a host record may lie at an address that is not
a multiple of 32, are the model's choices (log 31, 53). A spilled record is stated where its area holds what the Reeve wrote (log 19). -/
def Obligations.TaskPlacement : Prop :=
  ∀ (s : State) (r : TaskRec), s.io.frz = false → s.poison = [] → Reachable s →
    let device := fun (p n : Nat) => 0x10000000000 ≤ p ∧ p + n ≤ 0x16000000000
    let starts := fun (k eoff : Nat) (image : List Byte) (t : State) =>
      let y := t.ctx k 0
      y.run = .ready ∧ y.pc = BitVec.ofNat 13 (r.entry / 8 + eoff) ∧ y.sup = r.sup ∧
        (∀ i, y.readG i = if i = 1 then BitVec.ofNat 64 r.args else if i = 4 then 1 else if i = 5 then BitVec.ofNat 64 r.arglen else 0) ∧
        (∀ i, y.readP i = 0) ∧ (∀ i, y.readV i = 0) ∧ t.read (istoreBase k) r.codelen = image ∧ (t.core k).task = some r.ticket ∧
        (∀ c, c ≠ 0 → (t.ctx k c).run = .free) ∧ t.reeve.recs = [{ r with state := .running, cores := [k], retired := [] }]
    (∀ n, s.io.ready = true →
      let q := s.reeve.queues.get {} n
      let e := q.base.toNat + 8 * q.head
      let p := s.readN e 8
      let bs := s.read p 128
      let x := parseRecord bs q.die q.part (q.part == 0) (partClusters s q.part).head?
      q.en = true → 2 ≤ q.size → q.head ≠ q.tail → (s.reeve.dies.get {} q.die).lw < poolFree s q.die → device e 8 → device p 128 →
      recordOk bs = true → x.kind ≠ 2 → recFits s x = true → ∀ pa, recAddr s (recTables s x) true x.status = .ok pa →
      Gives (.hostQueueRead n) s fun t => t.reeve.queues.get {} n = { q with head := (q.head + 1) % q.size } ∧
        SameMemBut s t pa 32 ∧ t.readN pa 8 = 0 ∧ SameCtxs s t ∧
        t.reeve.recs = s.reeve.recs ++ [{ x with ticket := s.reeve.ticket, age := s.tower.toNat, state := .queued, sup := q.part == 0 }]) ∧
    (s.reeve.recs = [r] → r.state = .spilled → spillHolds s r = true → Gives (.spillRefill r.die) s fun t =>
      SameMem s t ∧ SameCtxs s t ∧ t.reeve.recs = [{ r with state := .queued, spillAt := none }]) ∧
    (∀ cl eoff, s.reeve.recs = [r] → r.state = .queued → r.kind = 0 → r.groups = [(eoff, 1)] → r.avoid = [] → r.restart = false →
      s.reeve.reserves = [] → s.halting r.part = false → cl < 384 → partClusters s r.part = [cl] → r.cluster = some cl →
      (∀ k ∈ coresOf cl, (s.ctx k 0).run = .free ∧ (s.core k).failed = false ∧ (s.core k).lastPart = none) →
      let scratch := fun (va n : Nat) => 0x400000 ≤ va ∧ va - 0x400000 + n ≤ (s.cluster cl).ways.s * 0x40000 ∧
        (s.cluster cl).ways.s ≤ 16
      scratch r.code r.codelen → scratch r.args r.arglen → scratch r.status 32 → r.status % 32 = 0 → r.codelen ≤ 65536 →
      (r.status + 32 ≤ r.code ∨ r.code + r.codelen ≤ r.status) →
      Gives (.taskPlace r.die) s (starts (cl * 8) eoff (s.read (scratchBase cl + (r.code - 0x400000)) r.codelen))) ∧
    (∀ g, g < 128 → s.reeve.recs = [r] → r.state = .queued → r.kind = 2 → r.gran = g → r.groups = [(0, 1)] → r.cluster = none →
      r.restart = false → (s.ctx (3072 + g) 0).run = .free → (s.core (3072 + g)).failed = false → (s.core (3072 + g)).lastPart = none →
      device r.code r.codelen → device r.args r.arglen → device r.status 32 → r.codelen ≤ 65536 →
      (r.status + 32 ≤ r.code ∨ r.code + r.codelen ≤ r.status) →
      Gives (.granaryProgramPlace g) s (starts (3072 + g) 0 (s.read r.code r.codelen))) ∧
    (s.reeve.recs = [r] → r.hasdl = true → r.late = false → (BitVec.ofNat 48 r.deadline - s.tower.setWidth 48).toInt < 0 →
      r.given = false → s.reeve.late.size = 0 → r.status % 32 = 0 → ∀ pa, recAddr s (recTables s r) true (r.status + 4) = .ok pa →
      Gives (.taskLate r.ticket) s fun t => t.reeve.recs = [{ r with late := true }] ∧ SameMemBut s t pa 4 ∧
        (t.readN pa 4).testBit 0 = true ∧ (t.io.ev.get {} 1).pend = true ∧ SameCtxs s t)

/-- R27, R120, R376: a task of one core whose `tend` has issued ends in steps: its dirty data is released, its status record says STATE
2 with the value of `tend`, and its context and its record become free. R40, R41, R381: a domain of one cluster in which every live
context is blocked and nothing is on its way is stalled: its census is written, and event 2 is raised. How long a domain is quiet before
its census is written is left free (log 26), and how the addresses of a record are translated is the model's choice (log 31). -/
def Obligations.TaskEnd : Prop :=
  (∀ (s : State) (k : Nat) (r : TaskRec), k < 3072 → s.coreStill k = false → (s.ctx k 0).run = .blocked .tend → (s.ctx k 0).reports = [] →
    (s.core k).task = some r.ticket → s.reeve.recs = [r] → r.kind = 0 → r.consumer = none → r.hasdl = false → r.compl = 0 →
    let x := s.core k
    (x.vq = [] → x.mq = [] → x.cq = [] → x.xq = [] → x.wb = [] → x.ops = [] → x.fetches = [] → x.wbOut = 0 →
      (∀ l ∈ x.l1, l.dirty = []) → (∀ l ∈ (s.cluster (clusterOf k)).cc, l.dirty = []) → (∀ h, h ≠ 0 → (s.ctx k h).run = .free) →
      (s.ctx k 0).tendStep < 3 → Gives (.tendRetire k) s fun t => SameMem s t ∧ t.ctx k 0 = { s.ctx k 0 with tendStep := 3 }) ∧
      ((s.ctx k 0).tendStep = 3 → r.status % 32 = 0 → ∀ pa, recAddr s (recTables s r) true r.status = .ok pa →
        Gives (.tendRetire k) s fun t => t.ctx k 0 = { s.ctx k 0 with tendStep := 4 } ∧ t.reeve.recs = [{ r with given := true }] ∧ SameMemBut s t pa 32 ∧ t.readN pa 4 = 2 ∧
          t.readN (pa + 8) 8 = (s.ctx k 0).exit.toNat ∧ t.readN (pa + 16) 8 = s.tower.toNat) ∧
      ((s.ctx k 0).tendStep = 4 → Gives (.tendRetire k) s fun t =>
        (t.ctx k 0).run = .free ∧ t.reeve.recs = [] ∧ (t.core k).task = none ∧ SameMem s t)) ∧
  (∀ (s : State) (cl : Nat), s.io.frz = false → cl < 384 → domainOfCluster s cl = [cl] → (s.cluster cl).census = false →
    domainBusy s [cl] = false → Reachable s →
    let es := liveContexts s cl
    es ≠ [] → (∀ e ∈ es, ∃ n, (s.ctx e.1 e.2).run = .blocked (.sacq n) ∨ (s.ctx e.1 e.2).run = .blocked (.bwait n) ∨
      (s.ctx e.1 e.2).run = .blocked (.frd n) ∨ (s.ctx e.1 e.2).run = .blocked (.join n)) →
    let q := s.reeve.census
    let a := q.base.toNat + q.tail * 16
    q.size ≠ 0 → q.tail + es.length + 1 ≤ q.size → 0x10000000000 ≤ a → a + 16 * (es.length + 1) ≤ 0x16000000000 →
    Gives (.domainStall cl) s fun t => (t.cluster cl).census = true ∧ (t.io.ev.get {} 2).pend = true ∧ SameCtxs s t ∧
      t.reeve.census = { q with tail := q.tail + es.length + 1 } ∧ SameMemBut s t a (16 * (es.length + 1)) ∧ t.readN a 8 = es.length ∧
      t.readN (a + 8) 8 = s.tower.toNat % 2 ^ 48)

/-! ### Register writes from outside a bundle, saving, the Curfew -/

/-- R36, R37, R92, R110, R150, R151, R260, R297 to R299, R318, R358, R359, R401, R437, R440, R441, R446: the writes to registers as events: each stores what its
fields say, and no byte of memory changes. The device is not frozen; a link that NETCTL takes down may end the attempt of a task (R379). -/
def Obligations.RegisterWrites : Prop :=
  ∀ (s : State) (k c cl : Nat) (v : Word), s.io.frz = false →
    let f := fun (hi lo : Nat) => v.toNat / 2 ^ lo % 2 ^ (hi + 1 - lo)
    let C := s.cluster cl
    let X := s.ctx k c
    let is := fun (i : Instr) (P : State → Prop) => Gives i s fun t => SameMem s t ∧ P t
    let domain := Domain.mk (min 4 (f 55 53)) (f 51 48) [(0, f 11 0), (1, f 23 12), (2, f 35 24), (3, f 47 36)]
    (C.domain.bulk = false → is (.domainWrite cl v) fun t => (t.cluster cl).domain = domain ∧ SameCtxs s t) ∧
      (C.domain.bulk = true → is (.domainWrite cl v) fun t =>
        (t.cluster cl).domain = C.domain ∧ (t.cluster cl).domainPend = some domain ∧ SameCtxs s t) ∧
      (C.phase.xp = false → is (.phaseWrite cl v) fun t => SameCtxs s t ∧ (t.cluster cl).phase =
        { C.phase with nent := f 31 24, tbl := f 22 6, xcol := C.phase.xcol && !v.getLsbD 1, terr := C.phase.terr && !v.getLsbD 2,
                       gerr := C.phase.gerr && !v.getLsbD 3 }) ∧
      (C.phase.xp = true → is (.phaseWrite cl v) fun t => SameCtxs s t ∧ (t.cluster cl).phase.held = some (f 31 24, f 22 6)) ∧
      is (.waymaskWrite cl v) (fun t => SameCtxs s t ∧ (t.cluster cl).ways.tgt = min C.ways.max (max C.ways.min (f 20 16)) ∧
        (t.cluster cl).ways.s = C.ways.s) ∧
      is (.waylimWrite cl v) (fun t => SameCtxs s t ∧ (t.cluster cl).ways.min = min 16 (f 4 0) ∧
        (t.cluster cl).ways.max = max (min 16 (f 4 0)) (min 16 (f 12 8)) ∧ (t.cluster cl).ways.ivl = min 30 (max 16 (f 20 16)) ∧
        (t.cluster cl).ways.auto = v.getLsbD 24) ∧
      (1 ≤ f 19 13 → f 19 13 ≤ 64 → is (.lsWrite k c v) fun t => t.ctx k c =
        { X with ls := { sdep := X.ls.sdep, ldep := min 32 (f 41 36), rot := if f 31 28 = 0 then 0 else f 35 32 % f 31 28, win := f 31 28,
                         held := v.getLsbD 22, rep := v.getLsbD 21, act := v.getLsbD 20, len := f 19 13,
                         start := BitVec.ofNat 13 (f 12 0) } }) ∧
      is (.mstatWrite k v) (fun t => SameCtxs s t ∧ (t.core k).mstat.rm = (if f 2 0 = 0 ∨ 4 < f 2 0 then 1 else f 2 0) ∧
        (let F := (s.core k).mstat.fl
         (t.core k).mstat.fl = Flags.mk (F.nx && !v.getLsbD 4) (F.uf && !v.getLsbD 5) (F.ovf && !v.getLsbD 6) (F.dz && !v.getLsbD 7)
          (F.nv && !v.getLsbD 8) (F.isat && !v.getLsbD 9) (F.csat && !v.getLsbD 11) (F.nfskip && !v.getLsbD 12)) ∧
        (t.core k).mstat.poison = ((s.core k).mstat.poison && !v.getLsbD 32) ∧
        (t.core k).mstat.abort = ((s.core k).mstat.abort && !v.getLsbD 33)) ∧
      is (.copyRegisterWrite k c 0x50 v) (fun t => t.ctx k c = { X with cp := { X.cp with src := v } }) ∧
      is (.copyRegisterWrite k c 0x51 v) (fun t => t.ctx k c = { X with cp := { X.cp with dst := v } }) ∧
      is (.copyRegisterWrite k c 0x56 v) (fun t => t.ctx k c = { X with cp := { X.cp with pad := v } }) ∧
      is (.copyRegisterWrite k c 0x52 v) (fun t => (t.ctx k c).cp.shapeDim = f 63 62 ∧
        (t.ctx k c).cp.shapeSlot (f 63 62) = BitVec.ofNat 64 (f 61 0) ∧ ∀ j, j ≠ f 63 62 → (t.ctx k c).cp.shapeSlot j = X.cp.shapeSlot j) ∧
      (cl < 520 → (f 23 16 = 0 ∨ s.reeve.recs = []) → is (.netctlWrite cl v) fun t => SameCtxs s t ∧
        t.router cl = { s.router cl with down := f 23 16, tmo := max 64 (f 15 0) }) ∧
      (cl < 16 → f 63 63 = 1 → is (.pctlWrite cl v) fun t => SameCtxs s t ∧ t.io.peers.get {} cl =
        { s.io.peers.get {} cl with en := true, port := if f 1 0 = 3 then 2 else f 1 0 }) ∧
      (cl < 16 → f 63 63 = 0 → s.io.peerMsgs = [] → is (.pctlWrite cl v) fun t => SameCtxs s t ∧
        (t.io.peers.get {} cl).en = false ∧ (t.io.peers.get {} cl).down = false) ∧
      (cl < 384 → is (.registerWrite cl 0xF000 v) fun t => SameCtxs s t ∧
        (t.cluster cl).ptroot = BitVec.ofNat 64 (f 49 12 * 2 ^ 12 + f 0 0)) ∧
      is (.registerWrite 512 0x6000 v) (fun t => SameCtxs s t ∧ t.io.plimWin = min 10 (f 19 16) ∧
        t.io.plimLimit = min 2600 (max 300 (f 11 0))) ∧
      is (.doorbell v) (fun t => SameCtxs s t ∧ t.io.doorbell = v ∧ (t.io.ev.get {} 0).pend = true ∧
        ((s.io.ev.get {} 0).pend = false → (s.io.ev.get {} 0).host = true → t.io.msix = s.io.msix ++ [0]))

/-- R200, R404, R409 to R411, at supervisor privilege: `tlbinv` is taken up, drops the translations of its range, then, with every access
of them performed, the lines of their pages, and increments its semaphore; `save` and `rest` of a target whose contexts are halted or free take an entry of the operand log and set the save engine of
the target's cluster to work; `save.res` with gD 0 gives up a paused save; a save whose area can be written finishes with the header.
What an image holds beyond the rules, and whose translations `tlbinv` waits for, are the model's choices (log 10, 18, 32). -/
def Obligations.SavesAndTranslations : Prop :=
  (∀ (s : State) (d a b : R5) (n : BitVec 7) (sc : Scope), s.me.sup = true → Quiet s →
    let k := s.cur.core
    let x := s.srcG d
    let y := s.srcG a
    let z := s.srcG b
    let f := fun (hi lo : Nat) => z.toNat / 2 ^ lo % 2 ^ (hi + 1 - lo)
    let j := f 8 0 * 8 + f 11 9
    let cl := f 8 0
    let form := f 8 0 < 384 ∧ f 63 13 = 0 ∧ y.toNat % 256 = 0
    let im := takeImage s j (z.getLsbD 12)
    let fault := fun (i : Instr) (code : Nat) => MayEnter s k s.cur.ctx → Gives i s (Faults s code 0)
    let works := fun (i : Instr) (off id : Nat) (t : State) => SameMem s t ∧ SameCtxs s t ∧ t.cur = s.cur ∧
      (t.cluster cl).engine = .busy k 0 off id ∧
      ∃ o, t.my.ops = [(0, o)] ∧ o.instr = i ∧ o.vals = [x, y, z] ∧ o.ctx = s.cur.ctx ∧ o.flt = none
    (CleanCaches s → (y = 0 ∨ canonical x.toNat = true) → Gives (.tlbinv d a n sc) s fun t => SameMem s t ∧ SameCtxs s t ∧ t.cur = s.cur ∧
      ∃ e, (t.cluster (tlbHome k)).tlbinvs = (s.cluster (tlbHome k)).tlbinvs ++ [e] ∧ e.core = k ∧ e.ctx = s.cur.ctx ∧ e.scope = sc ∧
        e.sem = n.toNat ∧ e.all = (y == 0) ∧ e.phase = 0) ∧
      (form → liveUnhalted (s.core j) = false → (s.cluster cl).engine = .idle → im.size ≤ x.toNat → Gives (.save d a b) s fun t =>
        works (.save d a b) 0x100 im.id t ∧ t.images = s.images ++ [im]) ∧
      (form → liveUnhalted (s.core j) = false → (s.cluster cl).engine = .idle → x.toNat < im.size → fault (.save d a b) 0x40) ∧
      (form → liveUnhalted (s.core j) = true → fault (.save d a b) 0x41 ∧ fault (.saveRes d a b) 0x41) ∧
      (¬ form → fault (.save d a b) 0x42 ∧ fault (.saveRes d a b) 0x42 ∧ fault (.rest d a b) 0x42) ∧
      (∀ off id, form → liveUnhalted (s.core j) = false → (s.cluster cl).engine = .paused j (z.getLsbD 12) y off id →
        (x = 0 → Gives (.saveRes d a b) s fun t => SameMem s t ∧ SameCtxs s t ∧ t.cur = s.cur ∧ (t.cluster cl).engine = .idle) ∧
          (x ≠ 0 → Gives (.saveRes d a b) s (works (.saveRes d a b) off id))) ∧
      (form → (∀ e ∈ (s.core j).ctxs, e.2.run = .free) → (s.cluster cl).engine = .idle → z.getLsbD 12 = false → 327680 ≤ x.toNat →
        y.toNat + 8 ≤ 0x20000 → s.poison = [] → Reachable s → k < 3072 →
        let h := s.readN (tcmBase k + y.toNat) 8
        (h.testBit 63 = true → h % 2 ^ 32 ≤ x.toNat → Gives (.rest d a b) s (works (.rest d a b) 0 0)) ∧
          (h.testBit 63 = false → fault (.rest d a b) 0x42))) ∧
  (∀ (s : State) (cl : Nat) (e : TlbInv) (rest : List TlbInv), s.io.frz = false → (s.cluster cl).tlbinvs = e :: rest →
    let own := e.scope = .clu ∧ e.core < 3072 ∧ clusterOf e.core = cl
    (e.phase = 0 → own → Gives (.tlbinvComplete cl) s fun t => SameMem s t ∧ SameCtxs s t ∧
        (∃ x, (t.cluster cl).tlbinvs = x :: rest ∧ x = { e with phase := 1, mark := x.mark, pages := x.pages } ∧
          ∀ p ∈ (s.cluster cl).tlb, e.covers p = true → (p.pbase, p.pbase + p.size) ∈ x.pages) ∧
        ∀ p, p ∈ (t.cluster cl).tlb ↔ p ∈ (s.cluster cl).tlb ∧ e.covers p = false) ∧
      (e.phase = 1 → own → tlbQuiet s e cl = true → Gives (.tlbinvComplete cl) s fun t => SameCtxs s t ∧
        (t.cluster cl).tlbinvs = { e with phase := 2 } :: rest ∧
        (∀ l ∈ (t.cluster cl).cc, inRanges e.pages l.addr = false) ∧
        ∀ j ∈ coresOf cl, ∀ l ∈ (t.core j).l1, inRanges e.pages l.addr = false) ∧
      (e.phase = 2 → (∀ j ∈ tlbScope s e.core e.scope, ∀ k ∈ coresOf j, (s.core k).wbOut = 0) → NoneBlocked s e.core →
        ((s.core e.core).sems.get {} e.sem).count < 65535 → Gives (.tlbinvComplete cl) s fun t => SameMem s t ∧ SameCtxs s t ∧
          (t.cluster cl).tlbinvs = rest ∧ ((t.core e.core).sems.get {} e.sem).count = ((s.core e.core).sems.get {} e.sem).count + 1)) ∧
  (∀ (s : State) (cl k e off : Nat) (o : Op) (im : Image) (d a b : R5) (x y z : Word), s.io.frz = false → k < 3072 →
    (s.cluster cl).engine = .busy k e off im.id → (s.core k).ops = [(e, o)] → o.instr = .save d a b → o.vals = [x, y, z] →
    s.images = [im] → im.cluster = none → Reachable s → 0x400000 ≤ y.toNat → (s.cluster (clusterOf k)).ways.s ≤ 16 →
    y.toNat - 0x400000 + 327680 ≤ (s.cluster (clusterOf k)).ways.s * 0x40000 →
    let p := scratchBase (clusterOf k) + (y.toNat - 0x400000)
    Gives (.saveEngineFinish cl) s fun t => (t.cluster cl).engine = .idle ∧ (t.core k).ops = [] ∧ SameCtxs s t ∧
      (t.core (saveTarget z)).saved = true ∧ SameMemBut s t p 327680 ∧ t.readN p 8 = 2 ^ 63 + 327680)

/-- R405, R406, R408, R439: `curf` gives a good request to the Curfew, and raises CURF_FORM for a bad one; a due stop, with the units of
the partition done and the network empty, halts every context of the partition and writes nothing outside its area; a due resume whose
slots are read returns each context to the state it had. CFSTAT and event 4 say that it is done. The bytes of the area are left free
(log 19). -/
def Obligations.Curfews : Prop :=
  (∀ (s : State) (d a b : R5), s.me.sup = true →
    let f := fun (r : R5) (hi lo : Nat) => (s.srcG r).toNat / 2 ^ lo % 2 ^ (hi + 1 - lo)
    let p := f d 5 0
    let good := f d 7 6 = 0 ∧ f d 63 10 = 0 ∧ partClusters s p ≠ [] ∧ f d 9 8 ≤ 1 ∧ f b 11 0 = 0 ∧ (p ∈ s.io.stopped ↔ f d 9 8 = 1) ∧
      ∀ c ∈ s.io.curfews, c.part ≠ p
    (good → Gives (.curf d a b) s fun t => t = { s with io := { s.io with curfews := s.io.curfews ++
        [Curfew.mk p (f d 9 8 == 1) (s.srcG a).toNat (s.srcG b).toNat false] } }) ∧
      (¬ good → MayEnter s s.cur.core s.cur.ctx → Gives (.curf d a b) s (Faults s 0x46 0))) ∧
  (∀ (s : State) (c : Curfew), s.io.frz = false → s.io.curfews = [c] → c.time ≤ s.tower.toNat →
    let mine := fun (k : Nat) => ∃ j ∈ partClusters s c.part, k ∈ coresOf j
    let done := fun (t : State) => t.io.curfews = [] ∧ (t.io.ev.get {} 4).pend = true ∧
      t.io.cfstat.get {} c.part = { done := true, op := c.resume.toNat, time := s.tower.toNat % 2 ^ 48 }
    let still := ∀ k, mine k → (∀ m ∈ (s.core k).vq, m.started = false) ∧ ∀ m ∈ (s.core k).mq, m.mill.steps = 0
    (c.resume = false → unitsDone s c.part = true → still → s.net.routers = [] → s.net.pairs = [] → s.net.ifaces = [] →
      Gives (.curfewStop c.part) s fun t => done t ∧ c.part ∈ t.io.stopped ∧ SameMemBut s t c.area 11747840 ∧
        (∀ k x, mine k → t.ctx k x = { s.ctx k x with run := (s.ctx k x).run.halt }) ∧ ∀ k x, ¬ mine k → t.ctx k x = s.ctx k x) ∧
      (c.resume = true → c.loaded = false → s.netImages = [] → Gives (.curfewResume c.part) s fun t =>
        t = { s with io := { s.io with curfews := [{ c with loaded := true }] } }) ∧
      (c.resume = true → c.loaded = true → s.net.routers = [] →
        (∀ k x w, (s.ctx k x).run ≠ .blocked w ∧ (s.ctx k x).run ≠ .halted (.blocked w)) →
        Gives (.curfewResume c.part) s fun t => done t ∧ c.part ∉ t.io.stopped ∧ SameMem s t ∧
          (∀ k x, mine k → t.ctx k x = { s.ctx k x with run := (s.ctx k x).run.unhalt }) ∧ ∀ k x, ¬ mine k → t.ctx k x = s.ctx k x))

/-! ### The outside -/

/-- R435, R436, R440, R441, at device memory that holds no error, of a device that is ready: a host write and a peer's write put their
bytes there and a read returns them; an AtomicOp gives the old value and writes the new one; the completion of a read gives its bytes to
the core that asked, and a completion that does not come gives TILE_DOWN; a request or an answer not acknowledged is sent again, 16 times,
and then the peer is down. What is answered to
accesses beyond the rules is the model's choice (log 33). -/
def Obligations.HostAndPeers : Prop :=
  ∀ (s : State), s.io.frz = false → s.io.ready = true → s.poison = [] → Reachable s →
    let base := 0x10000000000
    let size := 384 * 2 ^ 30
    (∀ off n x, 1 ≤ n → n ≤ 512 → off + n ≤ size →
      (Gives (.hostBarAccess 4 off n true x) s fun t => t.readN (base + off) n = x % 256 ^ n ∧ SameMemBut s t (base + off) n ∧
        SameCtxs s t) ∧
      (Gives (.hostBarAccess 4 off n false x) s fun t => t.io.hostReads = (4, s.read (base + off) n) :: s.io.hostReads ∧ SameMem s t ∧
        SameCtxs s t)) ∧
    (∀ off n x c, (n = 4 ∨ n = 8) → off % n = 0 → off + n ≤ size → x < 2 ^ (8 * n) → c < 2 ^ (8 * n) →
      let old := s.readN (base + off) n
      let is := fun (op : HostAtomic) (new : Nat) => Gives (.hostAtomicop op off n x c) s fun t =>
        t.io.hostReads = (4, s.read (base + off) n) :: s.io.hostReads ∧ t.readN (base + off) n = new ∧ SameMemBut s t (base + off) n ∧
          SameCtxs s t
      is .fetchAdd ((old + x) % 2 ^ (8 * n)) ∧ is .swap x ∧ is .cas (if old = c then x else old)) ∧
    (∀ p off, p < 16 → (s.io.peers.get {} p).en = true →
      ((s.io.peers.get {} p).port ≠ 1 ∧ (s.io.ports.get {} 0).up = true ∨ (s.io.peers.get {} p).port ≠ 0 ∧ (s.io.ports.get {} 1).up = true) →
      (∀ t, ansClosed s t p = false) →
      (∀ bs : List Byte, bs.length ≤ 9216 → off + bs.length ≤ size → Gives (.peerMessage p (.write off bs)) s fun t =>
        t.read (base + off) bs.length = bs ∧ SameMemBut s t (base + off) bs.length ∧ SameCtxs s t ∧ t.io.peerReads = (p, []) :: s.io.peerReads) ∧
      (∀ n, n ≤ 9216 → off + n ≤ size → Gives (.peerMessage p (.read off n)) s fun t =>
        SameMem s t ∧ SameCtxs s t ∧ t.io.peerReads = (p, s.read (base + off) n) :: s.io.peerReads) ∧
      ∀ o : Outer, s.io.peerMsgs = [o] → s.io.peerAns = [] → (o.access.pa - 0x2000000000000) / 2 ^ 44 = p →
        Gives (.peerMessage p (.ack o.tag)) s fun t => t = { s with io := { s.io with peerMsgs := [{ o with acked := true }] } }) ∧
    (∀ a : PeerAns, s.io.peerMsgs = [] → s.io.peerAns = [a] →
      (a.tries < 16 → Gives (.peerRetransmit a.tag) s fun t => t = { s with io := { s.io with peerAns := [{ a with tries := a.tries + 1 }] } }) ∧
        (16 ≤ a.tries → Gives (.peerRetransmit a.tag) s fun t => t.io.peerAns = [] ∧ (t.io.ev.get {} 5).pend = true ∧
          (t.io.peers.get {} a.peer).down = true ∧ SameMem s t ∧ SameCtxs s t)) ∧
    (∀ (o : Outer) (bs : List Byte), tileOf o.access.core ≠ o.back → o.access.asker ≠ .none → (∀ k, o.access.asker ≠ .wback k) →
      let answers := fun (bs : List Byte) (err : Option (Cause × BitVec 32)) (t : State) => SameCtxs s t ∧
        ∃ m, (t.iface o.back).out = (s.iface o.back).out ++ [m] ∧ m.dst = tileOf o.access.core ∧
          m.body = .answer o.access.asker o.access.core o.access.ctx o.access.stamp bs err o.access.pa
      (s.io.pcie = [o] → o.access.kind = .read → bs.length = o.access.n → Gives (.pcieCompletion o.tag true bs) s fun t =>
        answers bs none t ∧ t.io.pcie = [] ∧ t.read o.access.pa o.access.n = bs ∧ SameMemBut s t o.access.pa o.access.n) ∧
        (s.io.pcie = [o] → Gives (.pcieCompletionTimeout o.tag) s fun t =>
          answers [] (some (.tileDown, 0)) t ∧ t.io.pcie = [] ∧ SameMem s t) ∧
        (s.io.peerMsgs = [o] → o.acked = false → o.tries < 16 → Gives (.peerRetransmit o.tag) s fun t =>
          t = { s with io := { s.io with peerMsgs := [{ o with tries := o.tries + 1 }] } }) ∧
        (s.io.peerMsgs = [o] → o.acked = false → 16 ≤ o.tries → Gives (.peerRetransmit o.tag) s fun t => answers [] (some (.tileDown, 0)) t ∧
          t.io.peerMsgs = [] ∧ (t.io.ev.get {} 5).pend = true ∧
          (t.io.peers.get {} ((o.access.pa - 0x2000000000000) / 2 ^ 44)).down = true ∧ SameMem s t)) ∧
    (∀ n up, n < 2 → (s.io.ports.get {} n).link ≠ up → (up = true → (s.io.ports.get {} n).up = true) → Gives (.portLinkChange n up) s fun t =>
      (t.io.ports.get {} n).link = up ∧ (t.io.ev.get {} 5).pend = true ∧ SameMem s t ∧ SameCtxs s t) ∧
    (∀ gen width, (1 ≤ gen → gen ≤ 6 → 1 ≤ width → width ≤ 16 → Gives (.hostLinkChange true gen width) s fun t =>
        t = { s with io := { s.io with link := true, gen := gen, width := width } }) ∧
      Gives (.hostLinkChange false gen width) s fun t => t = { s with io := { s.io with link := false, gen := 0, width := 0 } })

/-- R413, R414, R442, R444 to R449: an uncorrectable error is remembered at its sector or its line, or fails its core; a retired sector is counted;
after a reset the device has booted one of its two sets, or says ERR; the attestation report is written at its address; droop, supply,
power and sensors; a freeze halts every context; the instructions of the test access port. What a boot finds, the report's keys, and the
test access port's free values are the model's choices (log 20, 21, 22); so are what memory and the units hold after a reset (log 4, 5)
and an error kept in a cache line (log 46). -/
def Obligations.DeviceEvents : Prop :=
  ∀ (s : State) (n : Nat),
    let tap := fun (ir : Nat) (dr : Word) (t : State) => t = { s with io := { s.io with tap := { s.io.tap with ir := ir, dr := dr } } }
    let scan := fun (ir : Nat) (t : State) => ∃ dr, t = { s with io := { s.io with tap := { s.io.tap with ir := ir, dr := dr } }, freeCtr := s.freeCtr + 1 }
    let frozen := fun (t : State) => t.io.frz = true ∧ SameMem s t ∧ ∀ k c, t.ctx k c = { s.ctx k c with run := (s.ctx k c).run.halt }
    (s.io.frz = false → 0x10000000000 ≤ n → n < 0x16000000000 → Gives (.uncorrectableError (.sector n)) s fun t =>
      t = { s with poison := t.poison } ∧ ∀ x, x ∈ t.poison ↔ x ∈ s.poison ∨ x = n / 32) ∧
    (∀ k, s.io.frz = false → k < 3200 → Gives (.uncorrectableError (.l1 k n)) s fun t => t = { s with cores := t.cores } ∧ SameOtherCores s t k ∧
      { t.core k with l1 := (s.core k).l1 } = s.core k ∧
        (t.core k).l1 = (s.core k).l1.map fun l => if l.addr = n / 32 then { l with bad := true } else l) ∧
    (∀ cl, s.io.frz = false → cl < 384 → Gives (.uncorrectableError (.cache cl n)) s fun t => t = { s with clusters := t.clusters } ∧
      (∀ j, j ≠ cl → t.cluster j = s.cluster j) ∧ { t.cluster cl with cc := (s.cluster cl).cc } = s.cluster cl ∧
        (t.cluster cl).cc = (s.cluster cl).cc.map fun l => if l.addr = n / 32 then { l with bad := true } else l) ∧
    (s.io.frz = false → n < 3072 → (s.core n).task = none → Gives (.uncorrectableError (.core n)) s fun t => (t.core n).failed = true ∧ SameMem s t ∧
      (∀ c, (t.ctx n c).run = .free) ∧ ∀ j c, j ≠ n → t.ctx j c = s.ctx j c) ∧
    (∀ set frame sector, s.io.frz = false → n < 128 → set < 128 → frame < 12 → sector < 32 →
      Gives (.llcSectorRetire n set frame sector) s fun t => SameMem s t ∧ SameCtxs s t ∧ (set, frame) ∈ (t.granary n).gone ∧
        (t.granary n).retired = if 65535 ≤ (s.granary n).retired + 1 then 65535 else (s.granary n).retired + 1) ∧
    (∀ b : BootInput, Gives (.deviceReset b) s fun t => (∀ k, t.core k = State.reset.core k) ∧ t.reeve = State.reset.reeve ∧
      (let good := fun (i : ImageInput) => i.signed = true ∧ i.keyHeld = true ∧ Config.minVersion.toNat ≤ i.version.toNat
       let A := good b.stewardA ∧ good b.deviceA
       let B := good b.stewardB ∧ good b.deviceB
       (t.io.ready = true ↔ A ∨ B) ∧ (t.io.err = true ↔ ¬ (A ∨ B)) ∧
        (A → t.io.version = b.deviceA.version.toNat ∧ t.io.set = 0 ∧ t.io.stage = 6) ∧
        (¬ A → B → t.io.version = b.deviceB.version.toNat ∧ t.io.set = 1 ∧ t.io.stage = 6) ∧ (¬ A → ¬ B → t.io.set = 1)) ∧
      ∀ a, memGet t.mem a = if 0x1000000000000 ≤ a ∧ a < 0x3000000000000 then memGet s.mem a else 0) ∧
    (s.io.attGo = true → s.io.frz = false → Reachable s → 0x10000000000 ≤ s.io.goAddr.toNat →
      s.io.goAddr.toNat + 320 ≤ 0x16000000000 → Gives .attestationReport s fun t => t.io.attGo = false ∧ t.io.attDone = true ∧
        SameMemBut s t s.io.goAddr.toNat 320 ∧ t.readN s.io.goAddr.toNat 4 = 0x414E4D4C ∧
        t.readN (s.io.goAddr.toNat + 16) 8 = s.tower.toNat ∧ SameCtxs s t) ∧
    (s.io.frz = false → n < 384 → (s.cluster n).sag = false → Gives (.droopEvent n) s fun t => (t.cluster n).sag = true ∧ SameMem s t ∧ SameCtxs s t ∧
      ∀ j, j < 8 → (t.cluster n).droops.get 0 j = (s.cluster n).droops.get 0 j + 1) ∧
    (s.io.frz = false → (s.cluster n).sag = true → Gives (.supplyRecovery n) s fun t => t.cluster n = { s.cluster n with sag := false } ∧ SameMem s t ∧
      SameCtxs s t) ∧
    (s.io.plimLimit < n → Gives (.powerThrottle n) s fun t => t.io.throt = true ∧ t.io.power = (if 4095 ≤ n then 4095 else n) ∧
      (s.io.throt = false → (t.io.ev.get {} 6).pend = true) ∧ SameMem s t ∧ SameCtxs s t) ∧
    (n ≤ s.io.plimLimit → Gives (.powerWithinLimit n) s fun t => t = { s with io := { s.io with throt := false, power := n } }) ∧
    (∀ j temp, s.io.frz = false → n < 384 → j < 8 → temp < 256 →
      let d := if 4095 ≤ (s.cluster n).droops.get 0 j then 4095 else (s.cluster n).droops.get 0 j
      Gives (.senseInterval n j temp) s fun t => (t.cluster n).sense.get {} j =
        Sense.mk (max (min 15 ((temp - 60) / 4)) (min 15 (d / 64))) d temp ∧ (t.cluster n).droops.get 0 j = 0 ∧ SameMem s t ∧ SameCtxs s t) ∧
    (s.io.frz = false → Gives .dbgctlFrz s frozen) ∧
    Gives .bypass s (tap 0xFF 0) ∧ Gives .idcode s (tap 0x01 0x1B7AE0F3) ∧ Gives .samplePreload s (scan 0x02) ∧
    Gives .extest s (scan 0x03) ∧ (s.io.tapen = true → s.io.frz = false → Gives .freeze s frozen) ∧
    (s.io.tapen = false → Gives .freeze s (tap 0x20 0)) ∧ (s.io.tapen = true → s.io.frz = true → Gives .scanout s (scan 0x21)) ∧
    ((s.io.tapen = false ∨ s.io.frz = false) → Gives .scanout s (tap 0x21 0))
end

