-- ==== Sys2Proof/Laws/Tab.lean ====
section
/-! SUPPORT. The laws of finite tables: reading after writing, removing and changing. -/

namespace Sys2Proof.Laws

theorem tab_find_put {α : Type} (t : Tab α) (j : Nat) (x : α) (i : Nat) :
    Tab.find (Tab.put t j x) i = if i = j then some x else Tab.find t i := by
  induction t with
  | nil =>
    simp only [Tab.put, Tab.find]
    by_cases h : j = i
    · simp [h]
    · simp [h, Ne.symm h]
  | cons e t ih =>
    obtain ⟨k, v⟩ := e
    simp only [Tab.put]
    by_cases h1 : j < k
    · simp only [h1, if_true, Tab.find]
      by_cases h2 : j = i
      · simp [h2]
      · simp [h2, Ne.symm h2]
    · by_cases h2 : j = k
      · subst h2
        simp only [Nat.lt_irrefl, if_false, if_true, Tab.find]
        by_cases h3 : j = i
        · simp [h3]
        · simp [h3, Ne.symm h3]
      · simp only [h1, h2, if_false, Tab.find, ih]
        by_cases h3 : k = i
        · subst h3
          simp [Ne.symm h2]
        · simp [h3]

theorem tab_find_del {α : Type} (t : Tab α) (j i : Nat) :
    Tab.find (Tab.del t j) i = if i = j then none else Tab.find t i := by
  induction t with
  | nil => simp [Tab.del, Tab.find]
  | cons e t ih =>
    obtain ⟨k, v⟩ := e
    simp only [Tab.del] at ih ⊢
    by_cases h : k = j
    · subst h
      simp only [List.filter_cons, bne_self_eq_false, Bool.false_eq_true, if_false, ih, Tab.find]
      by_cases h2 : i = k
      · simp [h2]
      · simp [h2, Ne.symm h2]
    · have h' : (k != j) = true := by simp [h]
      simp only [List.filter_cons, h', if_true, Tab.find, ih]
      by_cases h2 : k = i
      · subst h2
        simp [h]
      · simp [h2]

theorem tab_get_put {α : Type} (t : Tab α) (d : α) (j : Nat) (x : α) (i : Nat) :
    Tab.get (Tab.put t j x) d i = if i = j then x else Tab.get t d i := by
  simp only [Tab.get, tab_find_put]
  by_cases h : i = j <;> simp [h]

@[simp] theorem tab_get_put_self {α : Type} (t : Tab α) (d : α) (j : Nat) (x : α) : Tab.get (Tab.put t j x) d j = x := by
  simp [tab_get_put]

theorem tab_get_put_other {α : Type} (t : Tab α) (d : α) (j : Nat) (x : α) (i : Nat) (h : i ≠ j) :
    Tab.get (Tab.put t j x) d i = Tab.get t d i := by simp [tab_get_put, h]

theorem tab_get_del {α : Type} (t : Tab α) (d : α) (j i : Nat) :
    Tab.get (Tab.del t j) d i = if i = j then d else Tab.get t d i := by
  simp only [Tab.get, tab_find_del]
  by_cases h : i = j <;> simp [h]

theorem tab_get_upd {α : Type} (t : Tab α) (d : α) (j : Nat) (f : α → α) (i : Nat) :
    Tab.get (Tab.upd t d j f) d i = if i = j then f (Tab.get t d j) else Tab.get t d i := by
  simp [Tab.upd, tab_get_put]

@[simp] theorem tab_get_nil {α : Type} (d : α) (i : Nat) : Tab.get ([] : Tab α) d i = d := rfl
@[simp] theorem tab_find_nil {α : Type} (i : Nat) : Tab.find ([] : Tab α) i = none := rfl

end Sys2Proof.Laws
end

