-- ==== Sys2Proof/Laws/Memory.lean ====
section
/-! SUPPORT. The laws of memory: reading after writing, and the canonical form that every operation keeps. -/

namespace Sys2Proof.Laws

open Sys2Proof.Machine

/-! ### Reading after writing -/

theorem memGet_memSet (m : List Host.Cell) (a : Nat) (b : Byte) (x : Nat) :
    memGet (memSet m a b) x = if x = a then b else memGet m x := by
  unfold memGet memSet
  split
  · next h => simp only [tab_get_del]; split <;> simp_all
  · simp only [tab_get_put]

theorem memGet_memWrite (m : List Host.Cell) (a : Nat) (bs : List Byte) (x : Nat) :
    memGet (memWrite m a bs) x = if a ≤ x ∧ x < a + bs.length then bs.getD (x - a) 0 else memGet m x := by
  induction bs generalizing m a with
  | nil =>
    have h : ¬ (a ≤ x ∧ x < a + ([] : List Byte).length) := by simp
    simp only [memWrite, if_neg h]
  | cons b t ih =>
    simp only [memWrite, ih, memGet_memSet, List.length_cons]
    by_cases h1 : a + 1 ≤ x ∧ x < a + 1 + t.length
    · have h2 : a ≤ x ∧ x < a + (t.length + 1) := by omega
      have h3 : x - a = (x - (a + 1)) + 1 := by omega
      rw [if_pos h1, if_pos h2, h3, List.getD_cons_succ]
    · by_cases h4 : x = a
      · subst h4
        have h5 : x ≤ x ∧ x < x + (t.length + 1) := by omega
        rw [if_neg h1, if_pos rfl, if_pos h5]
        simp
      · have h6 : ¬ (a ≤ x ∧ x < a + (t.length + 1)) := by omega
        rw [if_neg h1, if_neg h4, if_neg h6]

/-- A write leaves every other address alone. -/
theorem memGet_memWrite_other (m : List Host.Cell) (a : Nat) (bs : List Byte) (x : Nat) (h : x < a ∨ a + bs.length ≤ x) :
    memGet (memWrite m a bs) x = memGet m x := by
  rw [memGet_memWrite, if_neg (by omega)]

theorem length_memRead (m : List Host.Cell) (a n : Nat) : (memRead m a n).length = n := by simp [memRead]

/-- Reading what was written gives it back. -/
theorem memRead_memWrite (m : List Host.Cell) (a : Nat) (bs : List Byte) : memRead (memWrite m a bs) a bs.length = bs := by
  apply List.ext_getElem
  · simp [memRead]
  · intro i h1 h2
    simp only [memRead, List.getElem_map, List.getElem_range, memGet_memWrite]
    rw [if_pos (by omega)]
    simp [List.getD_eq_getElem?_getD, h2]

@[simp] theorem length_toBytes (n x : Nat) : (toBytes n x).length = n := by
  induction n generalizing x with
  | zero => rfl
  | succ n ih => simp [toBytes, ih]

theorem ofBytes_toBytes (n x : Nat) : ofBytes (toBytes n x) = x % 256 ^ n := by
  induction n generalizing x with
  | zero => simp [toBytes, ofBytes, Nat.mod_one]
  | succ n ih =>
    have h : (256 : Nat) ^ (n + 1) = 256 * 256 ^ n := by rw [Nat.pow_succ, Nat.mul_comm]
    have h8 : (2 : Nat) ^ 8 = 256 := rfl
    simp only [toBytes, ofBytes, ih, BitVec.toNat_ofNat, h, h8, Nat.mod_mul]

/-! ### The canonical form -/

/-- Every address of the list is above `a`, and no byte is the unwritten one: what `memWf` says of a list after an entry at `a`. -/
theorem memWf_cons (a : Nat) (b : Byte) (t : List Host.Cell) :
    memWf ((a, b) :: t) = true ↔ b ≠ unwritten ∧ memWf t = true ∧ ∀ e ∈ t, a < e.1 := by
  induction t generalizing a b with
  | nil => simp [memWf]
  | cons e t ih =>
    obtain ⟨a', b'⟩ := e
    rw [memWf]
    simp only [Bool.and_eq_true, decide_eq_true_eq, bne_iff_ne, ne_eq, List.mem_cons, forall_eq_or_imp]
    constructor
    · rintro ⟨⟨h1, h2⟩, h3⟩
      refine ⟨h2, h3, h1, fun e he => ?_⟩
      exact Nat.lt_trans h1 (((ih a' b').mp h3).2.2 e he)
    · rintro ⟨h1, h2, h3, _⟩
      exact ⟨⟨h3, h1⟩, h2⟩

theorem memWf_filter (m : List Host.Cell) (p : Host.Cell → Bool) (h : memWf m = true) : memWf (m.filter p) = true := by
  induction m with
  | nil => simp [memWf]
  | cons e t ih =>
    obtain ⟨a, b⟩ := e
    have hc := (memWf_cons a b t).mp h
    rw [List.filter_cons]
    split
    · exact (memWf_cons a b _).mpr ⟨hc.1, ih hc.2.1, fun e he => hc.2.2 e (List.mem_filter.mp he).1⟩
    · exact ih hc.2.1

theorem mem_put (t : List Host.Cell) (j : Nat) (x : Byte) (e : Host.Cell) (h : e ∈ Tab.put t j x) : e = (j, x) ∨ e ∈ t := by
  induction t with
  | nil => simp_all [Tab.put]
  | cons f t ih =>
    obtain ⟨k, v⟩ := f
    simp only [Tab.put] at h
    split at h
    · simpa using h
    · split at h
      · rcases List.mem_cons.mp h with h | h
        · exact .inl h
        · exact .inr (List.mem_cons_of_mem _ h)
      · rcases List.mem_cons.mp h with h | h
        · exact .inr (by simp [h])
        · rcases ih h with h | h
          · exact .inl h
          · exact .inr (List.mem_cons_of_mem _ h)

theorem memWf_put (m : List Host.Cell) (a : Nat) (b : Byte) (hb : b ≠ unwritten) (h : memWf m = true) : memWf (Tab.put m a b) = true := by
  induction m with
  | nil => simp [Tab.put, memWf, hb]
  | cons e t ih =>
    obtain ⟨k, v⟩ := e
    have hc := (memWf_cons k v t).mp h
    simp only [Tab.put]
    split
    · next hlt =>
      refine (memWf_cons _ _ _).mpr ⟨hb, h, fun e he => ?_⟩
      rcases List.mem_cons.mp he with he | he
      · simpa [he] using hlt
      · exact Nat.lt_trans hlt (hc.2.2 e he)
    · split
      · next heq => subst heq; exact (memWf_cons _ _ _).mpr ⟨hb, hc.2.1, hc.2.2⟩
      · next h1 h2 =>
        refine (memWf_cons _ _ _).mpr ⟨hc.1, ih hc.2.1, fun e he => ?_⟩
        rcases mem_put _ _ _ _ he with he | he
        · subst he; simp only; omega
        · exact hc.2.2 e he

theorem memSet_wf (m : List Host.Cell) (a : Nat) (b : Byte) (h : memWf m = true) : memWf (memSet m a b) = true := by
  unfold memSet
  split
  · exact memWf_filter _ _ h
  · next hb => exact memWf_put _ _ _ hb h

theorem memWrite_wf (m : List Host.Cell) (a : Nat) (bs : List Byte) (h : memWf m = true) : memWf (memWrite m a bs) = true := by
  induction bs generalizing m a with
  | nil => exact h
  | cons b t ih => exact ih _ _ (memSet_wf m a b h)

/-- Every store of the machine through `State.write` keeps the form. -/
theorem write_wf (s : State) (a : Nat) (bs : List Byte) (h : memWf s.mem = true) : memWf (s.write a bs).mem = true :=
  memWrite_wf _ _ _ h

theorem writeN_wf (s : State) (a n x : Nat) (h : memWf s.mem = true) : memWf (s.writeN a n x).mem = true := write_wf _ _ _ h

/-- A fold of steps that keep the form keeps it. -/
theorem foldl_wf {α : Type} (l : List α) (f : State → α → State) (s : State)
    (hf : ∀ s x, memWf s.mem = true → memWf (f s x).mem = true) (h : memWf s.mem = true) : memWf (l.foldl f s).mem = true := by
  induction l generalizing s with
  | nil => exact h
  | cons x t ih => exact ih _ (hf _ _ h)

/-- In canonical form, two memories that read alike are equal. -/
theorem memWf_ext (m n : List Host.Cell) (hm : memWf m = true) (hn : memWf n = true) (h : ∀ a, memGet m a = memGet n a) : m = n := by
  induction m generalizing n with
  | nil =>
    cases n with
    | nil => rfl
    | cons e t =>
      obtain ⟨a, b⟩ := e
      have := h a
      simp only [memGet, Tab.get, Tab.find, if_true] at this
      exact absurd this.symm ((memWf_cons a b t).mp hn).1
  | cons e t ih =>
    obtain ⟨a, b⟩ := e
    have hc := (memWf_cons a b t).mp hm
    cases n with
    | nil =>
      have := h a
      simp only [memGet, Tab.get, Tab.find, if_true] at this
      exact absurd this hc.1
    | cons f u =>
      obtain ⟨a', b'⟩ := f
      have hd := (memWf_cons a' b' u).mp hn
      have none_of : ∀ (l : List Host.Cell) (x : Nat), (∀ e ∈ l, x < e.1) → Tab.find l x = none := by
        intro l x hl
        induction l with
        | nil => rfl
        | cons e l ih2 =>
          obtain ⟨k, v⟩ := e
          have hk : x < k := hl (k, v) (by simp)
          simp only [Tab.find, if_neg (by omega : ¬ k = x)]
          exact ih2 fun e he => hl e (List.mem_cons_of_mem _ he)
      have haa : a = a' := by
        rcases Nat.lt_trichotomy a a' with hlt | heq | hgt
        · have hx := h a
          have hf : Tab.find ((a', b') :: u) a = none := by
            apply none_of
            intro e he
            rcases List.mem_cons.mp he with he | he
            · simpa [he] using hlt
            · exact Nat.lt_trans hlt (hd.2.2 e he)
          have e1 : memGet ((a, b) :: t) a = b := by simp [memGet, Tab.get, Tab.find]
          have e2 : memGet ((a', b') :: u) a = unwritten := by simp [memGet, Tab.get, hf]
          rw [e1, e2] at hx
          exact absurd hx hc.1
        · exact heq
        · have hx := h a'
          have hf : Tab.find ((a, b) :: t) a' = none := by
            apply none_of
            intro e he
            rcases List.mem_cons.mp he with he | he
            · simpa [he] using hgt
            · exact Nat.lt_trans hgt (hc.2.2 e he)
          have e1 : memGet ((a', b') :: u) a' = b' := by simp [memGet, Tab.get, Tab.find]
          have e2 : memGet ((a, b) :: t) a' = unwritten := by simp [memGet, Tab.get, hf]
          rw [e1, e2] at hx
          exact absurd hx.symm hd.1
      subst haa
      have hbb : b = b' := by
        have hx := h a
        simpa [memGet, Tab.get, Tab.find] using hx
      subst hbb
      have htu : t = u := by
        apply ih u hc.2.1 hd.2.1
        intro x
        by_cases hxa : x = a
        · subst hxa
          simp [memGet, Tab.get, none_of t x hc.2.2, none_of u x hd.2.2]
        · have hx := h x
          simpa [memGet, Tab.get, Tab.find, Ne.symm hxa] using hx
      rw [htu]

end Sys2Proof.Laws
end

