-- ==== Sys2Proof/Laws/State.lean ====
section
/-! SUPPORT. The laws of the state's updates: for each update, one lemma for each field it leaves alone, and what a core, a
cluster or a context reads as after a change. -/

namespace Sys2Proof.Laws

open Sys2Proof.Machine

/-! ### Fields that an update leaves alone -/

@[simp] theorem updCore_clusters (s : State) (k : Nat) (f : Core → Core) : (s.updCore k f).clusters = s.clusters := rfl
@[simp] theorem updCore_granaries (s : State) (k : Nat) (f : Core → Core) : (s.updCore k f).granaries = s.granaries := rfl
@[simp] theorem updCore_net (s : State) (k : Nat) (f : Core → Core) : (s.updCore k f).net = s.net := rfl
@[simp] theorem updCore_reeve (s : State) (k : Nat) (f : Core → Core) : (s.updCore k f).reeve = s.reeve := rfl
@[simp] theorem updCore_io (s : State) (k : Nat) (f : Core → Core) : (s.updCore k f).io = s.io := rfl
@[simp] theorem updCore_tower (s : State) (k : Nat) (f : Core → Core) : (s.updCore k f).tower = s.tower := rfl
@[simp] theorem updCore_mem (s : State) (k : Nat) (f : Core → Core) : (s.updCore k f).mem = s.mem := rfl
@[simp] theorem updCore_poison (s : State) (k : Nat) (f : Core → Core) : (s.updCore k f).poison = s.poison := rfl
@[simp] theorem updCore_gatherings (s : State) (k : Nat) (f : Core → Core) : (s.updCore k f).gatherings = s.gatherings := rfl
@[simp] theorem updCore_images (s : State) (k : Nat) (f : Core → Core) : (s.updCore k f).images = s.images := rfl
@[simp] theorem updCore_netImages (s : State) (k : Nat) (f : Core → Core) : (s.updCore k f).netImages = s.netImages := rfl
@[simp] theorem updCore_cur (s : State) (k : Nat) (f : Core → Core) : (s.updCore k f).cur = s.cur := rfl
@[simp] theorem updCore_agenda (s : State) (k : Nat) (f : Core → Core) : (s.updCore k f).agenda = s.agenda := rfl
@[simp] theorem updCore_turn (s : State) (k : Nat) (f : Core → Core) : (s.updCore k f).turn = s.turn := rfl
@[simp] theorem updCore_freeCtr (s : State) (k : Nat) (f : Core → Core) : (s.updCore k f).freeCtr = s.freeCtr := rfl
@[simp] theorem updCore_stamp (s : State) (k : Nat) (f : Core → Core) : (s.updCore k f).stamp = s.stamp := rfl

@[simp] theorem updCluster_cores (s : State) (k : Nat) (f : Cluster → Cluster) : (s.updCluster k f).cores = s.cores := rfl
@[simp] theorem updCluster_granaries (s : State) (k : Nat) (f : Cluster → Cluster) : (s.updCluster k f).granaries = s.granaries := rfl
@[simp] theorem updCluster_net (s : State) (k : Nat) (f : Cluster → Cluster) : (s.updCluster k f).net = s.net := rfl
@[simp] theorem updCluster_reeve (s : State) (k : Nat) (f : Cluster → Cluster) : (s.updCluster k f).reeve = s.reeve := rfl
@[simp] theorem updCluster_io (s : State) (k : Nat) (f : Cluster → Cluster) : (s.updCluster k f).io = s.io := rfl
@[simp] theorem updCluster_tower (s : State) (k : Nat) (f : Cluster → Cluster) : (s.updCluster k f).tower = s.tower := rfl
@[simp] theorem updCluster_mem (s : State) (k : Nat) (f : Cluster → Cluster) : (s.updCluster k f).mem = s.mem := rfl
@[simp] theorem updCluster_poison (s : State) (k : Nat) (f : Cluster → Cluster) : (s.updCluster k f).poison = s.poison := rfl
@[simp] theorem updCluster_gatherings (s : State) (k : Nat) (f : Cluster → Cluster) : (s.updCluster k f).gatherings = s.gatherings := rfl
@[simp] theorem updCluster_images (s : State) (k : Nat) (f : Cluster → Cluster) : (s.updCluster k f).images = s.images := rfl
@[simp] theorem updCluster_netImages (s : State) (k : Nat) (f : Cluster → Cluster) : (s.updCluster k f).netImages = s.netImages := rfl
@[simp] theorem updCluster_cur (s : State) (k : Nat) (f : Cluster → Cluster) : (s.updCluster k f).cur = s.cur := rfl
@[simp] theorem updCluster_agenda (s : State) (k : Nat) (f : Cluster → Cluster) : (s.updCluster k f).agenda = s.agenda := rfl
@[simp] theorem updCluster_turn (s : State) (k : Nat) (f : Cluster → Cluster) : (s.updCluster k f).turn = s.turn := rfl
@[simp] theorem updCluster_freeCtr (s : State) (k : Nat) (f : Cluster → Cluster) : (s.updCluster k f).freeCtr = s.freeCtr := rfl
@[simp] theorem updCluster_stamp (s : State) (k : Nat) (f : Cluster → Cluster) : (s.updCluster k f).stamp = s.stamp := rfl

@[simp] theorem updGranary_cores (s : State) (k : Nat) (f : Granary → Granary) : (s.updGranary k f).cores = s.cores := rfl
@[simp] theorem updGranary_clusters (s : State) (k : Nat) (f : Granary → Granary) : (s.updGranary k f).clusters = s.clusters := rfl
@[simp] theorem updGranary_net (s : State) (k : Nat) (f : Granary → Granary) : (s.updGranary k f).net = s.net := rfl
@[simp] theorem updGranary_reeve (s : State) (k : Nat) (f : Granary → Granary) : (s.updGranary k f).reeve = s.reeve := rfl
@[simp] theorem updGranary_io (s : State) (k : Nat) (f : Granary → Granary) : (s.updGranary k f).io = s.io := rfl
@[simp] theorem updGranary_tower (s : State) (k : Nat) (f : Granary → Granary) : (s.updGranary k f).tower = s.tower := rfl
@[simp] theorem updGranary_mem (s : State) (k : Nat) (f : Granary → Granary) : (s.updGranary k f).mem = s.mem := rfl
@[simp] theorem updGranary_poison (s : State) (k : Nat) (f : Granary → Granary) : (s.updGranary k f).poison = s.poison := rfl
@[simp] theorem updGranary_gatherings (s : State) (k : Nat) (f : Granary → Granary) : (s.updGranary k f).gatherings = s.gatherings := rfl
@[simp] theorem updGranary_images (s : State) (k : Nat) (f : Granary → Granary) : (s.updGranary k f).images = s.images := rfl
@[simp] theorem updGranary_netImages (s : State) (k : Nat) (f : Granary → Granary) : (s.updGranary k f).netImages = s.netImages := rfl
@[simp] theorem updGranary_cur (s : State) (k : Nat) (f : Granary → Granary) : (s.updGranary k f).cur = s.cur := rfl
@[simp] theorem updGranary_agenda (s : State) (k : Nat) (f : Granary → Granary) : (s.updGranary k f).agenda = s.agenda := rfl
@[simp] theorem updGranary_turn (s : State) (k : Nat) (f : Granary → Granary) : (s.updGranary k f).turn = s.turn := rfl
@[simp] theorem updGranary_freeCtr (s : State) (k : Nat) (f : Granary → Granary) : (s.updGranary k f).freeCtr = s.freeCtr := rfl
@[simp] theorem updGranary_stamp (s : State) (k : Nat) (f : Granary → Granary) : (s.updGranary k f).stamp = s.stamp := rfl

@[simp] theorem updCtx_clusters (s : State) (k c : Nat) (f : Ctx → Ctx) : (s.updCtx k c f).clusters = s.clusters := rfl
@[simp] theorem updCtx_granaries (s : State) (k c : Nat) (f : Ctx → Ctx) : (s.updCtx k c f).granaries = s.granaries := rfl
@[simp] theorem updCtx_net (s : State) (k c : Nat) (f : Ctx → Ctx) : (s.updCtx k c f).net = s.net := rfl
@[simp] theorem updCtx_reeve (s : State) (k c : Nat) (f : Ctx → Ctx) : (s.updCtx k c f).reeve = s.reeve := rfl
@[simp] theorem updCtx_io (s : State) (k c : Nat) (f : Ctx → Ctx) : (s.updCtx k c f).io = s.io := rfl
@[simp] theorem updCtx_tower (s : State) (k c : Nat) (f : Ctx → Ctx) : (s.updCtx k c f).tower = s.tower := rfl
@[simp] theorem updCtx_mem (s : State) (k c : Nat) (f : Ctx → Ctx) : (s.updCtx k c f).mem = s.mem := rfl
@[simp] theorem updCtx_poison (s : State) (k c : Nat) (f : Ctx → Ctx) : (s.updCtx k c f).poison = s.poison := rfl
@[simp] theorem updCtx_gatherings (s : State) (k c : Nat) (f : Ctx → Ctx) : (s.updCtx k c f).gatherings = s.gatherings := rfl
@[simp] theorem updCtx_images (s : State) (k c : Nat) (f : Ctx → Ctx) : (s.updCtx k c f).images = s.images := rfl
@[simp] theorem updCtx_netImages (s : State) (k c : Nat) (f : Ctx → Ctx) : (s.updCtx k c f).netImages = s.netImages := rfl
@[simp] theorem updCtx_cur (s : State) (k c : Nat) (f : Ctx → Ctx) : (s.updCtx k c f).cur = s.cur := rfl
@[simp] theorem updCtx_agenda (s : State) (k c : Nat) (f : Ctx → Ctx) : (s.updCtx k c f).agenda = s.agenda := rfl
@[simp] theorem updCtx_turn (s : State) (k c : Nat) (f : Ctx → Ctx) : (s.updCtx k c f).turn = s.turn := rfl
@[simp] theorem updCtx_freeCtr (s : State) (k c : Nat) (f : Ctx → Ctx) : (s.updCtx k c f).freeCtr = s.freeCtr := rfl
@[simp] theorem updCtx_stamp (s : State) (k c : Nat) (f : Ctx → Ctx) : (s.updCtx k c f).stamp = s.stamp := rfl

@[simp] theorem updIface_clusters (s : State) (i : Nat) (f : Iface → Iface) : (s.updIface i f).clusters = s.clusters := rfl
@[simp] theorem updIface_granaries (s : State) (i : Nat) (f : Iface → Iface) : (s.updIface i f).granaries = s.granaries := rfl
@[simp] theorem updIface_reeve (s : State) (i : Nat) (f : Iface → Iface) : (s.updIface i f).reeve = s.reeve := rfl
@[simp] theorem updIface_io (s : State) (i : Nat) (f : Iface → Iface) : (s.updIface i f).io = s.io := rfl
@[simp] theorem updIface_tower (s : State) (i : Nat) (f : Iface → Iface) : (s.updIface i f).tower = s.tower := rfl
@[simp] theorem updIface_mem (s : State) (i : Nat) (f : Iface → Iface) : (s.updIface i f).mem = s.mem := rfl
@[simp] theorem updIface_poison (s : State) (i : Nat) (f : Iface → Iface) : (s.updIface i f).poison = s.poison := rfl
@[simp] theorem updIface_gatherings (s : State) (i : Nat) (f : Iface → Iface) : (s.updIface i f).gatherings = s.gatherings := rfl
@[simp] theorem updIface_images (s : State) (i : Nat) (f : Iface → Iface) : (s.updIface i f).images = s.images := rfl
@[simp] theorem updIface_netImages (s : State) (i : Nat) (f : Iface → Iface) : (s.updIface i f).netImages = s.netImages := rfl
@[simp] theorem updIface_cur (s : State) (i : Nat) (f : Iface → Iface) : (s.updIface i f).cur = s.cur := rfl
@[simp] theorem updIface_agenda (s : State) (i : Nat) (f : Iface → Iface) : (s.updIface i f).agenda = s.agenda := rfl
@[simp] theorem updIface_turn (s : State) (i : Nat) (f : Iface → Iface) : (s.updIface i f).turn = s.turn := rfl
@[simp] theorem updIface_freeCtr (s : State) (i : Nat) (f : Iface → Iface) : (s.updIface i f).freeCtr = s.freeCtr := rfl
@[simp] theorem updIface_stamp (s : State) (i : Nat) (f : Iface → Iface) : (s.updIface i f).stamp = s.stamp := rfl
@[simp] theorem updIface_cores (s : State) (i : Nat) (f : Iface → Iface) : (s.updIface i f).cores = s.cores := rfl
@[simp] theorem updIface_routers (s : State) (i : Nat) (f : Iface → Iface) : (s.updIface i f).net.routers = s.net.routers := rfl
@[simp] theorem updIface_pairs (s : State) (i : Nat) (f : Iface → Iface) : (s.updIface i f).net.pairs = s.net.pairs := rfl
@[simp] theorem updIface_failedLinks (s : State) (i : Nat) (f : Iface → Iface) : (s.updIface i f).net.failedLinks = s.net.failedLinks := rfl
@[simp] theorem updIface_failedRouters (s : State) (i : Nat) (f : Iface → Iface) : (s.updIface i f).net.failedRouters = s.net.failedRouters := rfl
@[simp] theorem updIface_knownLinks (s : State) (i : Nat) (f : Iface → Iface) : (s.updIface i f).net.knownLinks = s.net.knownLinks := rfl
@[simp] theorem updIface_knownRouters (s : State) (i : Nat) (f : Iface → Iface) : (s.updIface i f).net.knownRouters = s.net.knownRouters := rfl
@[simp] theorem updIface_byway (s : State) (i : Nat) (f : Iface → Iface) : (s.updIface i f).net.byway = s.net.byway := rfl
@[simp] theorem updIface_lantern (s : State) (i : Nat) (f : Iface → Iface) : (s.updIface i f).net.lantern = s.net.lantern := rfl

@[simp] theorem spend_clusters (s : State) : s.spend.clusters = s.clusters := rfl
@[simp] theorem spend_granaries (s : State) : s.spend.granaries = s.granaries := rfl
@[simp] theorem spend_net (s : State) : s.spend.net = s.net := rfl
@[simp] theorem spend_reeve (s : State) : s.spend.reeve = s.reeve := rfl
@[simp] theorem spend_io (s : State) : s.spend.io = s.io := rfl
@[simp] theorem spend_tower (s : State) : s.spend.tower = s.tower := rfl
@[simp] theorem spend_mem (s : State) : s.spend.mem = s.mem := rfl
@[simp] theorem spend_poison (s : State) : s.spend.poison = s.poison := rfl
@[simp] theorem spend_gatherings (s : State) : s.spend.gatherings = s.gatherings := rfl
@[simp] theorem spend_images (s : State) : s.spend.images = s.images := rfl
@[simp] theorem spend_netImages (s : State) : s.spend.netImages = s.netImages := rfl
@[simp] theorem spend_cur (s : State) : s.spend.cur = s.cur := rfl
@[simp] theorem spend_agenda (s : State) : s.spend.agenda = s.agenda := rfl
@[simp] theorem spend_turn (s : State) : s.spend.turn = s.turn := rfl
@[simp] theorem spend_stamp (s : State) : s.spend.stamp = s.stamp := rfl
@[simp] theorem spend_cores (s : State) : s.spend.cores = s.cores := rfl

@[simp] theorem updMe_clusters (s : State) (f : Ctx → Ctx) : (s.updMe f).clusters = s.clusters := rfl
@[simp] theorem updMe_granaries (s : State) (f : Ctx → Ctx) : (s.updMe f).granaries = s.granaries := rfl
@[simp] theorem updMe_net (s : State) (f : Ctx → Ctx) : (s.updMe f).net = s.net := rfl
@[simp] theorem updMe_reeve (s : State) (f : Ctx → Ctx) : (s.updMe f).reeve = s.reeve := rfl
@[simp] theorem updMe_io (s : State) (f : Ctx → Ctx) : (s.updMe f).io = s.io := rfl
@[simp] theorem updMe_tower (s : State) (f : Ctx → Ctx) : (s.updMe f).tower = s.tower := rfl
@[simp] theorem updMe_mem (s : State) (f : Ctx → Ctx) : (s.updMe f).mem = s.mem := rfl
@[simp] theorem updMe_poison (s : State) (f : Ctx → Ctx) : (s.updMe f).poison = s.poison := rfl
@[simp] theorem updMe_gatherings (s : State) (f : Ctx → Ctx) : (s.updMe f).gatherings = s.gatherings := rfl
@[simp] theorem updMe_images (s : State) (f : Ctx → Ctx) : (s.updMe f).images = s.images := rfl
@[simp] theorem updMe_netImages (s : State) (f : Ctx → Ctx) : (s.updMe f).netImages = s.netImages := rfl
@[simp] theorem updMe_cur (s : State) (f : Ctx → Ctx) : (s.updMe f).cur = s.cur := rfl
@[simp] theorem updMe_agenda (s : State) (f : Ctx → Ctx) : (s.updMe f).agenda = s.agenda := rfl
@[simp] theorem updMe_turn (s : State) (f : Ctx → Ctx) : (s.updMe f).turn = s.turn := rfl
@[simp] theorem updMe_freeCtr (s : State) (f : Ctx → Ctx) : (s.updMe f).freeCtr = s.freeCtr := rfl
@[simp] theorem updMe_stamp (s : State) (f : Ctx → Ctx) : (s.updMe f).stamp = s.stamp := rfl

@[simp] theorem updMy_clusters (s : State) (f : Core → Core) : (s.updMy f).clusters = s.clusters := rfl
@[simp] theorem updMy_granaries (s : State) (f : Core → Core) : (s.updMy f).granaries = s.granaries := rfl
@[simp] theorem updMy_net (s : State) (f : Core → Core) : (s.updMy f).net = s.net := rfl
@[simp] theorem updMy_reeve (s : State) (f : Core → Core) : (s.updMy f).reeve = s.reeve := rfl
@[simp] theorem updMy_io (s : State) (f : Core → Core) : (s.updMy f).io = s.io := rfl
@[simp] theorem updMy_tower (s : State) (f : Core → Core) : (s.updMy f).tower = s.tower := rfl
@[simp] theorem updMy_mem (s : State) (f : Core → Core) : (s.updMy f).mem = s.mem := rfl
@[simp] theorem updMy_poison (s : State) (f : Core → Core) : (s.updMy f).poison = s.poison := rfl
@[simp] theorem updMy_gatherings (s : State) (f : Core → Core) : (s.updMy f).gatherings = s.gatherings := rfl
@[simp] theorem updMy_images (s : State) (f : Core → Core) : (s.updMy f).images = s.images := rfl
@[simp] theorem updMy_netImages (s : State) (f : Core → Core) : (s.updMy f).netImages = s.netImages := rfl
@[simp] theorem updMy_cur (s : State) (f : Core → Core) : (s.updMy f).cur = s.cur := rfl
@[simp] theorem updMy_agenda (s : State) (f : Core → Core) : (s.updMy f).agenda = s.agenda := rfl
@[simp] theorem updMy_turn (s : State) (f : Core → Core) : (s.updMy f).turn = s.turn := rfl
@[simp] theorem updMy_freeCtr (s : State) (f : Core → Core) : (s.updMy f).freeCtr = s.freeCtr := rfl
@[simp] theorem updMy_stamp (s : State) (f : Core → Core) : (s.updMy f).stamp = s.stamp := rfl

@[simp] theorem updCur_cores (s : State) (f : Cur → Cur) : (s.updCur f).cores = s.cores := rfl
@[simp] theorem updCur_clusters (s : State) (f : Cur → Cur) : (s.updCur f).clusters = s.clusters := rfl
@[simp] theorem updCur_granaries (s : State) (f : Cur → Cur) : (s.updCur f).granaries = s.granaries := rfl
@[simp] theorem updCur_net (s : State) (f : Cur → Cur) : (s.updCur f).net = s.net := rfl
@[simp] theorem updCur_reeve (s : State) (f : Cur → Cur) : (s.updCur f).reeve = s.reeve := rfl
@[simp] theorem updCur_io (s : State) (f : Cur → Cur) : (s.updCur f).io = s.io := rfl
@[simp] theorem updCur_tower (s : State) (f : Cur → Cur) : (s.updCur f).tower = s.tower := rfl
@[simp] theorem updCur_mem (s : State) (f : Cur → Cur) : (s.updCur f).mem = s.mem := rfl
@[simp] theorem updCur_poison (s : State) (f : Cur → Cur) : (s.updCur f).poison = s.poison := rfl
@[simp] theorem updCur_gatherings (s : State) (f : Cur → Cur) : (s.updCur f).gatherings = s.gatherings := rfl
@[simp] theorem updCur_images (s : State) (f : Cur → Cur) : (s.updCur f).images = s.images := rfl
@[simp] theorem updCur_netImages (s : State) (f : Cur → Cur) : (s.updCur f).netImages = s.netImages := rfl
@[simp] theorem updCur_agenda (s : State) (f : Cur → Cur) : (s.updCur f).agenda = s.agenda := rfl
@[simp] theorem updCur_turn (s : State) (f : Cur → Cur) : (s.updCur f).turn = s.turn := rfl
@[simp] theorem updCur_freeCtr (s : State) (f : Cur → Cur) : (s.updCur f).freeCtr = s.freeCtr := rfl
@[simp] theorem updCur_stamp (s : State) (f : Cur → Cur) : (s.updCur f).stamp = s.stamp := rfl

@[simp] theorem setG_clusters (s : State) (r : R5) (v : Word) : (s.setG r v).clusters = s.clusters := rfl
@[simp] theorem setG_granaries (s : State) (r : R5) (v : Word) : (s.setG r v).granaries = s.granaries := rfl
@[simp] theorem setG_net (s : State) (r : R5) (v : Word) : (s.setG r v).net = s.net := rfl
@[simp] theorem setG_reeve (s : State) (r : R5) (v : Word) : (s.setG r v).reeve = s.reeve := rfl
@[simp] theorem setG_io (s : State) (r : R5) (v : Word) : (s.setG r v).io = s.io := rfl
@[simp] theorem setG_tower (s : State) (r : R5) (v : Word) : (s.setG r v).tower = s.tower := rfl
@[simp] theorem setG_mem (s : State) (r : R5) (v : Word) : (s.setG r v).mem = s.mem := rfl
@[simp] theorem setG_poison (s : State) (r : R5) (v : Word) : (s.setG r v).poison = s.poison := rfl
@[simp] theorem setG_gatherings (s : State) (r : R5) (v : Word) : (s.setG r v).gatherings = s.gatherings := rfl
@[simp] theorem setG_images (s : State) (r : R5) (v : Word) : (s.setG r v).images = s.images := rfl
@[simp] theorem setG_netImages (s : State) (r : R5) (v : Word) : (s.setG r v).netImages = s.netImages := rfl
@[simp] theorem setG_cur (s : State) (r : R5) (v : Word) : (s.setG r v).cur = s.cur := rfl
@[simp] theorem setG_agenda (s : State) (r : R5) (v : Word) : (s.setG r v).agenda = s.agenda := rfl
@[simp] theorem setG_turn (s : State) (r : R5) (v : Word) : (s.setG r v).turn = s.turn := rfl
@[simp] theorem setG_freeCtr (s : State) (r : R5) (v : Word) : (s.setG r v).freeCtr = s.freeCtr := rfl
@[simp] theorem setG_stamp (s : State) (r : R5) (v : Word) : (s.setG r v).stamp = s.stamp := rfl

@[simp] theorem setP_clusters (s : State) (r : R5) (v : Word) : (s.setP r v).clusters = s.clusters := rfl
@[simp] theorem setP_granaries (s : State) (r : R5) (v : Word) : (s.setP r v).granaries = s.granaries := rfl
@[simp] theorem setP_net (s : State) (r : R5) (v : Word) : (s.setP r v).net = s.net := rfl
@[simp] theorem setP_reeve (s : State) (r : R5) (v : Word) : (s.setP r v).reeve = s.reeve := rfl
@[simp] theorem setP_io (s : State) (r : R5) (v : Word) : (s.setP r v).io = s.io := rfl
@[simp] theorem setP_tower (s : State) (r : R5) (v : Word) : (s.setP r v).tower = s.tower := rfl
@[simp] theorem setP_mem (s : State) (r : R5) (v : Word) : (s.setP r v).mem = s.mem := rfl
@[simp] theorem setP_poison (s : State) (r : R5) (v : Word) : (s.setP r v).poison = s.poison := rfl
@[simp] theorem setP_gatherings (s : State) (r : R5) (v : Word) : (s.setP r v).gatherings = s.gatherings := rfl
@[simp] theorem setP_images (s : State) (r : R5) (v : Word) : (s.setP r v).images = s.images := rfl
@[simp] theorem setP_netImages (s : State) (r : R5) (v : Word) : (s.setP r v).netImages = s.netImages := rfl
@[simp] theorem setP_cur (s : State) (r : R5) (v : Word) : (s.setP r v).cur = s.cur := rfl
@[simp] theorem setP_agenda (s : State) (r : R5) (v : Word) : (s.setP r v).agenda = s.agenda := rfl
@[simp] theorem setP_turn (s : State) (r : R5) (v : Word) : (s.setP r v).turn = s.turn := rfl
@[simp] theorem setP_freeCtr (s : State) (r : R5) (v : Word) : (s.setP r v).freeCtr = s.freeCtr := rfl
@[simp] theorem setP_stamp (s : State) (r : R5) (v : Word) : (s.setP r v).stamp = s.stamp := rfl

@[simp] theorem setV_clusters (s : State) (r : R5) (v : VWord) : (s.setV r v).clusters = s.clusters := rfl
@[simp] theorem setV_granaries (s : State) (r : R5) (v : VWord) : (s.setV r v).granaries = s.granaries := rfl
@[simp] theorem setV_net (s : State) (r : R5) (v : VWord) : (s.setV r v).net = s.net := rfl
@[simp] theorem setV_reeve (s : State) (r : R5) (v : VWord) : (s.setV r v).reeve = s.reeve := rfl
@[simp] theorem setV_io (s : State) (r : R5) (v : VWord) : (s.setV r v).io = s.io := rfl
@[simp] theorem setV_tower (s : State) (r : R5) (v : VWord) : (s.setV r v).tower = s.tower := rfl
@[simp] theorem setV_mem (s : State) (r : R5) (v : VWord) : (s.setV r v).mem = s.mem := rfl
@[simp] theorem setV_poison (s : State) (r : R5) (v : VWord) : (s.setV r v).poison = s.poison := rfl
@[simp] theorem setV_gatherings (s : State) (r : R5) (v : VWord) : (s.setV r v).gatherings = s.gatherings := rfl
@[simp] theorem setV_images (s : State) (r : R5) (v : VWord) : (s.setV r v).images = s.images := rfl
@[simp] theorem setV_netImages (s : State) (r : R5) (v : VWord) : (s.setV r v).netImages = s.netImages := rfl
@[simp] theorem setV_cur (s : State) (r : R5) (v : VWord) : (s.setV r v).cur = s.cur := rfl
@[simp] theorem setV_agenda (s : State) (r : R5) (v : VWord) : (s.setV r v).agenda = s.agenda := rfl
@[simp] theorem setV_turn (s : State) (r : R5) (v : VWord) : (s.setV r v).turn = s.turn := rfl
@[simp] theorem setV_freeCtr (s : State) (r : R5) (v : VWord) : (s.setV r v).freeCtr = s.freeCtr := rfl
@[simp] theorem setV_stamp (s : State) (r : R5) (v : VWord) : (s.setV r v).stamp = s.stamp := rfl

@[simp] theorem write_cores (s : State) (a : Nat) (bs : List Byte) : (s.write a bs).cores = s.cores := rfl
@[simp] theorem write_clusters (s : State) (a : Nat) (bs : List Byte) : (s.write a bs).clusters = s.clusters := rfl
@[simp] theorem write_granaries (s : State) (a : Nat) (bs : List Byte) : (s.write a bs).granaries = s.granaries := rfl
@[simp] theorem write_net (s : State) (a : Nat) (bs : List Byte) : (s.write a bs).net = s.net := rfl
@[simp] theorem write_reeve (s : State) (a : Nat) (bs : List Byte) : (s.write a bs).reeve = s.reeve := rfl
@[simp] theorem write_io (s : State) (a : Nat) (bs : List Byte) : (s.write a bs).io = s.io := rfl
@[simp] theorem write_tower (s : State) (a : Nat) (bs : List Byte) : (s.write a bs).tower = s.tower := rfl
@[simp] theorem write_poison (s : State) (a : Nat) (bs : List Byte) : (s.write a bs).poison = s.poison := rfl
@[simp] theorem write_gatherings (s : State) (a : Nat) (bs : List Byte) : (s.write a bs).gatherings = s.gatherings := rfl
@[simp] theorem write_images (s : State) (a : Nat) (bs : List Byte) : (s.write a bs).images = s.images := rfl
@[simp] theorem write_netImages (s : State) (a : Nat) (bs : List Byte) : (s.write a bs).netImages = s.netImages := rfl
@[simp] theorem write_cur (s : State) (a : Nat) (bs : List Byte) : (s.write a bs).cur = s.cur := rfl
@[simp] theorem write_agenda (s : State) (a : Nat) (bs : List Byte) : (s.write a bs).agenda = s.agenda := rfl
@[simp] theorem write_turn (s : State) (a : Nat) (bs : List Byte) : (s.write a bs).turn = s.turn := rfl
@[simp] theorem write_freeCtr (s : State) (a : Nat) (bs : List Byte) : (s.write a bs).freeCtr = s.freeCtr := rfl
@[simp] theorem write_stamp (s : State) (a : Nat) (bs : List Byte) : (s.write a bs).stamp = s.stamp := rfl

@[simp] theorem writeN_cores (s : State) (a n x : Nat) : (s.writeN a n x).cores = s.cores := rfl
@[simp] theorem writeN_clusters (s : State) (a n x : Nat) : (s.writeN a n x).clusters = s.clusters := rfl
@[simp] theorem writeN_granaries (s : State) (a n x : Nat) : (s.writeN a n x).granaries = s.granaries := rfl
@[simp] theorem writeN_net (s : State) (a n x : Nat) : (s.writeN a n x).net = s.net := rfl
@[simp] theorem writeN_reeve (s : State) (a n x : Nat) : (s.writeN a n x).reeve = s.reeve := rfl
@[simp] theorem writeN_io (s : State) (a n x : Nat) : (s.writeN a n x).io = s.io := rfl
@[simp] theorem writeN_tower (s : State) (a n x : Nat) : (s.writeN a n x).tower = s.tower := rfl
@[simp] theorem writeN_poison (s : State) (a n x : Nat) : (s.writeN a n x).poison = s.poison := rfl
@[simp] theorem writeN_gatherings (s : State) (a n x : Nat) : (s.writeN a n x).gatherings = s.gatherings := rfl
@[simp] theorem writeN_images (s : State) (a n x : Nat) : (s.writeN a n x).images = s.images := rfl
@[simp] theorem writeN_netImages (s : State) (a n x : Nat) : (s.writeN a n x).netImages = s.netImages := rfl
@[simp] theorem writeN_cur (s : State) (a n x : Nat) : (s.writeN a n x).cur = s.cur := rfl
@[simp] theorem writeN_agenda (s : State) (a n x : Nat) : (s.writeN a n x).agenda = s.agenda := rfl
@[simp] theorem writeN_turn (s : State) (a n x : Nat) : (s.writeN a n x).turn = s.turn := rfl
@[simp] theorem writeN_freeCtr (s : State) (a n x : Nat) : (s.writeN a n x).freeCtr = s.freeCtr := rfl
@[simp] theorem writeN_stamp (s : State) (a n x : Nat) : (s.writeN a n x).stamp = s.stamp := rfl

@[simp] theorem goTo_cores (s : State) (t : PC) (b : Bool) : (s.goTo t b).cores = s.cores := rfl
@[simp] theorem goTo_clusters (s : State) (t : PC) (b : Bool) : (s.goTo t b).clusters = s.clusters := rfl
@[simp] theorem goTo_granaries (s : State) (t : PC) (b : Bool) : (s.goTo t b).granaries = s.granaries := rfl
@[simp] theorem goTo_net (s : State) (t : PC) (b : Bool) : (s.goTo t b).net = s.net := rfl
@[simp] theorem goTo_reeve (s : State) (t : PC) (b : Bool) : (s.goTo t b).reeve = s.reeve := rfl
@[simp] theorem goTo_io (s : State) (t : PC) (b : Bool) : (s.goTo t b).io = s.io := rfl
@[simp] theorem goTo_tower (s : State) (t : PC) (b : Bool) : (s.goTo t b).tower = s.tower := rfl
@[simp] theorem goTo_mem (s : State) (t : PC) (b : Bool) : (s.goTo t b).mem = s.mem := rfl
@[simp] theorem goTo_poison (s : State) (t : PC) (b : Bool) : (s.goTo t b).poison = s.poison := rfl
@[simp] theorem goTo_gatherings (s : State) (t : PC) (b : Bool) : (s.goTo t b).gatherings = s.gatherings := rfl
@[simp] theorem goTo_images (s : State) (t : PC) (b : Bool) : (s.goTo t b).images = s.images := rfl
@[simp] theorem goTo_netImages (s : State) (t : PC) (b : Bool) : (s.goTo t b).netImages = s.netImages := rfl
@[simp] theorem goTo_agenda (s : State) (t : PC) (b : Bool) : (s.goTo t b).agenda = s.agenda := rfl
@[simp] theorem goTo_turn (s : State) (t : PC) (b : Bool) : (s.goTo t b).turn = s.turn := rfl
@[simp] theorem goTo_freeCtr (s : State) (t : PC) (b : Bool) : (s.goTo t b).freeCtr = s.freeCtr := rfl
@[simp] theorem goTo_stamp (s : State) (t : PC) (b : Bool) : (s.goTo t b).stamp = s.stamp := rfl

@[simp] theorem leave_clusters (s : State) (k c : Nat) (n : PC) (b : Bool) : (s.leave k c n b).clusters = s.clusters := rfl
@[simp] theorem leave_granaries (s : State) (k c : Nat) (n : PC) (b : Bool) : (s.leave k c n b).granaries = s.granaries := rfl
@[simp] theorem leave_net (s : State) (k c : Nat) (n : PC) (b : Bool) : (s.leave k c n b).net = s.net := rfl
@[simp] theorem leave_reeve (s : State) (k c : Nat) (n : PC) (b : Bool) : (s.leave k c n b).reeve = s.reeve := rfl
@[simp] theorem leave_io (s : State) (k c : Nat) (n : PC) (b : Bool) : (s.leave k c n b).io = s.io := rfl
@[simp] theorem leave_tower (s : State) (k c : Nat) (n : PC) (b : Bool) : (s.leave k c n b).tower = s.tower := rfl
@[simp] theorem leave_mem (s : State) (k c : Nat) (n : PC) (b : Bool) : (s.leave k c n b).mem = s.mem := rfl
@[simp] theorem leave_poison (s : State) (k c : Nat) (n : PC) (b : Bool) : (s.leave k c n b).poison = s.poison := rfl
@[simp] theorem leave_gatherings (s : State) (k c : Nat) (n : PC) (b : Bool) : (s.leave k c n b).gatherings = s.gatherings := rfl
@[simp] theorem leave_images (s : State) (k c : Nat) (n : PC) (b : Bool) : (s.leave k c n b).images = s.images := rfl
@[simp] theorem leave_netImages (s : State) (k c : Nat) (n : PC) (b : Bool) : (s.leave k c n b).netImages = s.netImages := rfl
@[simp] theorem leave_cur (s : State) (k c : Nat) (n : PC) (b : Bool) : (s.leave k c n b).cur = s.cur := rfl
@[simp] theorem leave_agenda (s : State) (k c : Nat) (n : PC) (b : Bool) : (s.leave k c n b).agenda = s.agenda := rfl
@[simp] theorem leave_turn (s : State) (k c : Nat) (n : PC) (b : Bool) : (s.leave k c n b).turn = s.turn := rfl
@[simp] theorem leave_freeCtr (s : State) (k c : Nat) (n : PC) (b : Bool) : (s.leave k c n b).freeCtr = s.freeCtr := rfl
@[simp] theorem leave_stamp (s : State) (k c : Nat) (n : PC) (b : Bool) : (s.leave k c n b).stamp = s.stamp := rfl

@[simp] theorem orFlags_clusters (s : State) (k : Nat) (f : Flags) : (s.orFlags k f).clusters = s.clusters := rfl
@[simp] theorem orFlags_granaries (s : State) (k : Nat) (f : Flags) : (s.orFlags k f).granaries = s.granaries := rfl
@[simp] theorem orFlags_net (s : State) (k : Nat) (f : Flags) : (s.orFlags k f).net = s.net := rfl
@[simp] theorem orFlags_reeve (s : State) (k : Nat) (f : Flags) : (s.orFlags k f).reeve = s.reeve := rfl
@[simp] theorem orFlags_io (s : State) (k : Nat) (f : Flags) : (s.orFlags k f).io = s.io := rfl
@[simp] theorem orFlags_tower (s : State) (k : Nat) (f : Flags) : (s.orFlags k f).tower = s.tower := rfl
@[simp] theorem orFlags_mem (s : State) (k : Nat) (f : Flags) : (s.orFlags k f).mem = s.mem := rfl
@[simp] theorem orFlags_poison (s : State) (k : Nat) (f : Flags) : (s.orFlags k f).poison = s.poison := rfl
@[simp] theorem orFlags_gatherings (s : State) (k : Nat) (f : Flags) : (s.orFlags k f).gatherings = s.gatherings := rfl
@[simp] theorem orFlags_images (s : State) (k : Nat) (f : Flags) : (s.orFlags k f).images = s.images := rfl
@[simp] theorem orFlags_netImages (s : State) (k : Nat) (f : Flags) : (s.orFlags k f).netImages = s.netImages := rfl
@[simp] theorem orFlags_cur (s : State) (k : Nat) (f : Flags) : (s.orFlags k f).cur = s.cur := rfl
@[simp] theorem orFlags_agenda (s : State) (k : Nat) (f : Flags) : (s.orFlags k f).agenda = s.agenda := rfl
@[simp] theorem orFlags_turn (s : State) (k : Nat) (f : Flags) : (s.orFlags k f).turn = s.turn := rfl
@[simp] theorem orFlags_freeCtr (s : State) (k : Nat) (f : Flags) : (s.orFlags k f).freeCtr = s.freeCtr := rfl
@[simp] theorem orFlags_stamp (s : State) (k : Nat) (f : Flags) : (s.orFlags k f).stamp = s.stamp := rfl

@[simp] theorem report_clusters (s : State) (k c : Nat) (r : Report) : (s.report k c r).clusters = s.clusters := rfl
@[simp] theorem report_granaries (s : State) (k c : Nat) (r : Report) : (s.report k c r).granaries = s.granaries := rfl
@[simp] theorem report_net (s : State) (k c : Nat) (r : Report) : (s.report k c r).net = s.net := rfl
@[simp] theorem report_reeve (s : State) (k c : Nat) (r : Report) : (s.report k c r).reeve = s.reeve := rfl
@[simp] theorem report_io (s : State) (k c : Nat) (r : Report) : (s.report k c r).io = s.io := rfl
@[simp] theorem report_tower (s : State) (k c : Nat) (r : Report) : (s.report k c r).tower = s.tower := rfl
@[simp] theorem report_mem (s : State) (k c : Nat) (r : Report) : (s.report k c r).mem = s.mem := rfl
@[simp] theorem report_poison (s : State) (k c : Nat) (r : Report) : (s.report k c r).poison = s.poison := rfl
@[simp] theorem report_gatherings (s : State) (k c : Nat) (r : Report) : (s.report k c r).gatherings = s.gatherings := rfl
@[simp] theorem report_images (s : State) (k c : Nat) (r : Report) : (s.report k c r).images = s.images := rfl
@[simp] theorem report_netImages (s : State) (k c : Nat) (r : Report) : (s.report k c r).netImages = s.netImages := rfl
@[simp] theorem report_cur (s : State) (k c : Nat) (r : Report) : (s.report k c r).cur = s.cur := rfl
@[simp] theorem report_agenda (s : State) (k c : Nat) (r : Report) : (s.report k c r).agenda = s.agenda := rfl
@[simp] theorem report_turn (s : State) (k c : Nat) (r : Report) : (s.report k c r).turn = s.turn := rfl
@[simp] theorem report_freeCtr (s : State) (k c : Nat) (r : Report) : (s.report k c r).freeCtr = s.freeCtr := rfl
@[simp] theorem report_stamp (s : State) (k c : Nat) (r : Report) : (s.report k c r).stamp = s.stamp := rfl

@[simp] theorem stall_clusters (s : State) : (s.stall).clusters = s.clusters := rfl
@[simp] theorem stall_granaries (s : State) : (s.stall).granaries = s.granaries := rfl
@[simp] theorem stall_net (s : State) : (s.stall).net = s.net := rfl
@[simp] theorem stall_reeve (s : State) : (s.stall).reeve = s.reeve := rfl
@[simp] theorem stall_io (s : State) : (s.stall).io = s.io := rfl
@[simp] theorem stall_tower (s : State) : (s.stall).tower = s.tower := rfl
@[simp] theorem stall_mem (s : State) : (s.stall).mem = s.mem := rfl
@[simp] theorem stall_poison (s : State) : (s.stall).poison = s.poison := rfl
@[simp] theorem stall_gatherings (s : State) : (s.stall).gatherings = s.gatherings := rfl
@[simp] theorem stall_images (s : State) : (s.stall).images = s.images := rfl
@[simp] theorem stall_netImages (s : State) : (s.stall).netImages = s.netImages := rfl
@[simp] theorem stall_agenda (s : State) : (s.stall).agenda = s.agenda := rfl
@[simp] theorem stall_turn (s : State) : (s.stall).turn = s.turn := rfl
@[simp] theorem stall_freeCtr (s : State) : (s.stall).freeCtr = s.freeCtr := rfl
@[simp] theorem stall_stamp (s : State) : (s.stall).stamp = s.stamp := rfl

@[simp] theorem block_clusters (s : State) (w : Wait) : (s.block w).clusters = s.clusters := rfl
@[simp] theorem block_granaries (s : State) (w : Wait) : (s.block w).granaries = s.granaries := rfl
@[simp] theorem block_net (s : State) (w : Wait) : (s.block w).net = s.net := rfl
@[simp] theorem block_reeve (s : State) (w : Wait) : (s.block w).reeve = s.reeve := rfl
@[simp] theorem block_io (s : State) (w : Wait) : (s.block w).io = s.io := rfl
@[simp] theorem block_tower (s : State) (w : Wait) : (s.block w).tower = s.tower := rfl
@[simp] theorem block_mem (s : State) (w : Wait) : (s.block w).mem = s.mem := rfl
@[simp] theorem block_poison (s : State) (w : Wait) : (s.block w).poison = s.poison := rfl
@[simp] theorem block_gatherings (s : State) (w : Wait) : (s.block w).gatherings = s.gatherings := rfl
@[simp] theorem block_images (s : State) (w : Wait) : (s.block w).images = s.images := rfl
@[simp] theorem block_netImages (s : State) (w : Wait) : (s.block w).netImages = s.netImages := rfl
@[simp] theorem block_agenda (s : State) (w : Wait) : (s.block w).agenda = s.agenda := rfl
@[simp] theorem block_turn (s : State) (w : Wait) : (s.block w).turn = s.turn := rfl
@[simp] theorem block_freeCtr (s : State) (w : Wait) : (s.block w).freeCtr = s.freeCtr := rfl
@[simp] theorem block_stamp (s : State) (w : Wait) : (s.block w).stamp = s.stamp := rfl

/-! ### Registers of a context -/

@[simp] theorem writeG_p (x : Ctx) (r : Nat) (v : Word) : (x.writeG r v).p = x.p := by unfold Ctx.writeG; split <;> rfl
@[simp] theorem writeG_v (x : Ctx) (r : Nat) (v : Word) : (x.writeG r v).v = x.v := by unfold Ctx.writeG; split <;> rfl
@[simp] theorem writeG_lc (x : Ctx) (r : Nat) (v : Word) : (x.writeG r v).lc = x.lc := by unfold Ctx.writeG; split <;> rfl
@[simp] theorem writeG_ls (x : Ctx) (r : Nat) (v : Word) : (x.writeG r v).ls = x.ls := by unfold Ctx.writeG; split <;> rfl
@[simp] theorem writeG_pc (x : Ctx) (r : Nat) (v : Word) : (x.writeG r v).pc = x.pc := by unfold Ctx.writeG; split <;> rfl
@[simp] theorem writeG_run (x : Ctx) (r : Nat) (v : Word) : (x.writeG r v).run = x.run := by unfold Ctx.writeG; split <;> rfl
@[simp] theorem writeG_sup (x : Ctx) (r : Nat) (v : Word) : (x.writeG r v).sup = x.sup := by unfold Ctx.writeG; split <;> rfl
@[simp] theorem writeG_cause (x : Ctx) (r : Nat) (v : Word) : (x.writeG r v).cause = x.cause := by unfold Ctx.writeG; split <;> rfl
@[simp] theorem writeG_trapPc (x : Ctx) (r : Nat) (v : Word) : (x.writeG r v).trapPc = x.trapPc := by unfold Ctx.writeG; split <;> rfl
@[simp] theorem writeG_cp (x : Ctx) (r : Nat) (v : Word) : (x.writeG r v).cp = x.cp := by unfold Ctx.writeG; split <;> rfl
@[simp] theorem writeG_reports (x : Ctx) (r : Nat) (v : Word) : (x.writeG r v).reports = x.reports := by unfold Ctx.writeG; split <;> rfl
@[simp] theorem writeG_handler (x : Ctx) (r : Nat) (v : Word) : (x.writeG r v).handler = x.handler := by unfold Ctx.writeG; split <;> rfl
@[simp] theorem writeG_yieldFor (x : Ctx) (r : Nat) (v : Word) : (x.writeG r v).yieldFor = x.yieldFor := by unfold Ctx.writeG; split <;> rfl
@[simp] theorem writeG_yieldStay (x : Ctx) (r : Nat) (v : Word) : (x.writeG r v).yieldStay = x.yieldStay := by unfold Ctx.writeG; split <;> rfl
@[simp] theorem writeG_exit (x : Ctx) (r : Nat) (v : Word) : (x.writeG r v).exit = x.exit := by unfold Ctx.writeG; split <;> rfl
@[simp] theorem writeG_tendStep (x : Ctx) (r : Nat) (v : Word) : (x.writeG r v).tendStep = x.tendStep := by unfold Ctx.writeG; split <;> rfl
@[simp] theorem writeG_since (x : Ctx) (r : Nat) (v : Word) : (x.writeG r v).since = x.since := by unfold Ctx.writeG; split <;> rfl

@[simp] theorem writeP_g (x : Ctx) (r : Nat) (v : Word) : (x.writeP r v).g = x.g := rfl
@[simp] theorem writeP_v (x : Ctx) (r : Nat) (v : Word) : (x.writeP r v).v = x.v := rfl
@[simp] theorem writeP_lc (x : Ctx) (r : Nat) (v : Word) : (x.writeP r v).lc = x.lc := rfl
@[simp] theorem writeP_ls (x : Ctx) (r : Nat) (v : Word) : (x.writeP r v).ls = x.ls := rfl
@[simp] theorem writeP_pc (x : Ctx) (r : Nat) (v : Word) : (x.writeP r v).pc = x.pc := rfl
@[simp] theorem writeP_run (x : Ctx) (r : Nat) (v : Word) : (x.writeP r v).run = x.run := rfl
@[simp] theorem writeP_sup (x : Ctx) (r : Nat) (v : Word) : (x.writeP r v).sup = x.sup := rfl
@[simp] theorem writeP_cause (x : Ctx) (r : Nat) (v : Word) : (x.writeP r v).cause = x.cause := rfl
@[simp] theorem writeP_trapPc (x : Ctx) (r : Nat) (v : Word) : (x.writeP r v).trapPc = x.trapPc := rfl
@[simp] theorem writeP_cp (x : Ctx) (r : Nat) (v : Word) : (x.writeP r v).cp = x.cp := rfl
@[simp] theorem writeP_reports (x : Ctx) (r : Nat) (v : Word) : (x.writeP r v).reports = x.reports := rfl
@[simp] theorem writeP_handler (x : Ctx) (r : Nat) (v : Word) : (x.writeP r v).handler = x.handler := rfl
@[simp] theorem writeP_yieldFor (x : Ctx) (r : Nat) (v : Word) : (x.writeP r v).yieldFor = x.yieldFor := rfl
@[simp] theorem writeP_yieldStay (x : Ctx) (r : Nat) (v : Word) : (x.writeP r v).yieldStay = x.yieldStay := rfl
@[simp] theorem writeP_exit (x : Ctx) (r : Nat) (v : Word) : (x.writeP r v).exit = x.exit := rfl
@[simp] theorem writeP_tendStep (x : Ctx) (r : Nat) (v : Word) : (x.writeP r v).tendStep = x.tendStep := rfl
@[simp] theorem writeP_since (x : Ctx) (r : Nat) (v : Word) : (x.writeP r v).since = x.since := rfl

@[simp] theorem writeV_g (x : Ctx) (r : Nat) (v : VWord) : (x.writeV r v).g = x.g := rfl
@[simp] theorem writeV_p (x : Ctx) (r : Nat) (v : VWord) : (x.writeV r v).p = x.p := rfl
@[simp] theorem writeV_lc (x : Ctx) (r : Nat) (v : VWord) : (x.writeV r v).lc = x.lc := rfl
@[simp] theorem writeV_ls (x : Ctx) (r : Nat) (v : VWord) : (x.writeV r v).ls = x.ls := rfl
@[simp] theorem writeV_pc (x : Ctx) (r : Nat) (v : VWord) : (x.writeV r v).pc = x.pc := rfl
@[simp] theorem writeV_run (x : Ctx) (r : Nat) (v : VWord) : (x.writeV r v).run = x.run := rfl
@[simp] theorem writeV_sup (x : Ctx) (r : Nat) (v : VWord) : (x.writeV r v).sup = x.sup := rfl
@[simp] theorem writeV_cause (x : Ctx) (r : Nat) (v : VWord) : (x.writeV r v).cause = x.cause := rfl
@[simp] theorem writeV_trapPc (x : Ctx) (r : Nat) (v : VWord) : (x.writeV r v).trapPc = x.trapPc := rfl
@[simp] theorem writeV_cp (x : Ctx) (r : Nat) (v : VWord) : (x.writeV r v).cp = x.cp := rfl
@[simp] theorem writeV_reports (x : Ctx) (r : Nat) (v : VWord) : (x.writeV r v).reports = x.reports := rfl
@[simp] theorem writeV_handler (x : Ctx) (r : Nat) (v : VWord) : (x.writeV r v).handler = x.handler := rfl
@[simp] theorem writeV_yieldFor (x : Ctx) (r : Nat) (v : VWord) : (x.writeV r v).yieldFor = x.yieldFor := rfl
@[simp] theorem writeV_yieldStay (x : Ctx) (r : Nat) (v : VWord) : (x.writeV r v).yieldStay = x.yieldStay := rfl
@[simp] theorem writeV_exit (x : Ctx) (r : Nat) (v : VWord) : (x.writeV r v).exit = x.exit := rfl
@[simp] theorem writeV_tendStep (x : Ctx) (r : Nat) (v : VWord) : (x.writeV r v).tendStep = x.tendStep := rfl
@[simp] theorem writeV_since (x : Ctx) (r : Nat) (v : VWord) : (x.writeV r v).since = x.since := rfl

theorem readG_writeG (x : Ctx) (r : Nat) (v : Word) (i : Nat) :
    (x.writeG r v).readG i = if i = r ∧ r ≠ 0 then v else x.readG i := by
  unfold Ctx.writeG Ctx.readG
  by_cases h : r = 0
  · simp [h]
  · by_cases h2 : i = r
    · simp [h, h2]
    · by_cases h3 : i = 0
      · subst h3
        simp [h, h2]
      · simp [h, h2, h3, tab_get_put]
theorem readP_writeP (x : Ctx) (r : Nat) (v : Word) (i : Nat) :
    (x.writeP r v).readP i = if i = r then v else x.readP i := by
  simp [Ctx.writeP, Ctx.readP, tab_get_put]
theorem readV_writeV (x : Ctx) (r : Nat) (v : VWord) (i : Nat) :
    (x.writeV r v).readV i = if i = r then v else x.readV i := by
  simp [Ctx.writeV, Ctx.readV, tab_get_put]
@[simp] theorem readG_zero (x : Ctx) : x.readG 0 = 0 := rfl
@[simp] theorem readP_writeG (x : Ctx) (r : Nat) (v : Word) (i : Nat) : (x.writeG r v).readP i = x.readP i := by
  simp [Ctx.readP]
@[simp] theorem readV_writeG (x : Ctx) (r : Nat) (v : Word) (i : Nat) : (x.writeG r v).readV i = x.readV i := by
  simp [Ctx.readV]
@[simp] theorem readG_writeP (x : Ctx) (r : Nat) (v : Word) (i : Nat) : (x.writeP r v).readG i = x.readG i := rfl
@[simp] theorem readV_writeP (x : Ctx) (r : Nat) (v : Word) (i : Nat) : (x.writeP r v).readV i = x.readV i := rfl
@[simp] theorem readG_writeV (x : Ctx) (r : Nat) (v : VWord) (i : Nat) : (x.writeV r v).readG i = x.readG i := rfl
@[simp] theorem readP_writeV (x : Ctx) (r : Nat) (v : VWord) (i : Nat) : (x.writeV r v).readP i = x.readP i := rfl

/-! ### What a core, a cluster, a Granary or a context reads as after a change -/

theorem core_updCore (s : State) (k : Nat) (f : Core → Core) (j : Nat) :
    (s.updCore k f).core j = if j = k then f (s.core k) else s.core j := by
  simp [State.updCore, State.core, tab_get_put]
@[simp] theorem core_updCore_self (s : State) (k : Nat) (f : Core → Core) : (s.updCore k f).core k = f (s.core k) := by
  simp [core_updCore]
theorem cluster_updCluster (s : State) (k : Nat) (f : Cluster → Cluster) (j : Nat) :
    (s.updCluster k f).cluster j = if j = k then f (s.cluster k) else s.cluster j := by
  simp [State.updCluster, State.cluster, tab_get_put]
@[simp] theorem cluster_updCluster_self (s : State) (k : Nat) (f : Cluster → Cluster) :
    (s.updCluster k f).cluster k = f (s.cluster k) := by simp [cluster_updCluster]
theorem granary_updGranary (s : State) (k : Nat) (f : Granary → Granary) (j : Nat) :
    (s.updGranary k f).granary j = if j = k then f (s.granary k) else s.granary j := by
  simp [State.updGranary, State.granary, tab_get_put]
theorem ctx_updCtx (s : State) (k c : Nat) (f : Ctx → Ctx) (j d : Nat) :
    (s.updCtx k c f).ctx j d = if j = k ∧ d = c then f (s.ctx k c) else s.ctx j d := by
  simp only [State.updCtx, State.ctx, core_updCore]
  by_cases h : j = k
  · subst h
    by_cases h2 : d = c <;> simp [h2, tab_get_put]
  · simp [h]
@[simp] theorem ctx_updCtx_self (s : State) (k c : Nat) (f : Ctx → Ctx) : (s.updCtx k c f).ctx k c = f (s.ctx k c) := by
  simp [ctx_updCtx]
@[simp] theorem me_updMe (s : State) (f : Ctx → Ctx) : (s.updMe f).me = f s.me := by
  simp [State.updMe, State.me]
@[simp] theorem me_setG (s : State) (r : R5) (v : Word) : (s.setG r v).me = s.me.writeG r.toNat v := by
  simp [State.setG]
@[simp] theorem me_setP (s : State) (r : R5) (v : Word) : (s.setP r v).me = s.me.writeP r.toNat v := by
  simp [State.setP]
@[simp] theorem me_setV (s : State) (r : R5) (v : VWord) : (s.setV r v).me = s.me.writeV r.toNat v := by
  simp [State.setV]
@[simp] theorem me_updCur_out (s : State) (o : Out) : (s.updCur fun x => { x with out := o }).me = s.me := rfl
@[simp] theorem ctx_updCur (s : State) (f : Cur → Cur) (k c : Nat) : (s.updCur f).ctx k c = s.ctx k c := rfl
@[simp] theorem core_updCur (s : State) (f : Cur → Cur) (k : Nat) : (s.updCur f).core k = s.core k := rfl
@[simp] theorem ctx_write (s : State) (a : Nat) (bs : List Byte) (k c : Nat) : (s.write a bs).ctx k c = s.ctx k c := rfl
@[simp] theorem core_write (s : State) (a : Nat) (bs : List Byte) (k : Nat) : (s.write a bs).core k = s.core k := rfl
@[simp] theorem ctx_updCluster (s : State) (j : Nat) (f : Cluster → Cluster) (k c : Nat) : (s.updCluster j f).ctx k c = s.ctx k c := rfl
@[simp] theorem core_updCluster (s : State) (j : Nat) (f : Cluster → Cluster) (k : Nat) : (s.updCluster j f).core k = s.core k := rfl
@[simp] theorem cluster_updCore (s : State) (j : Nat) (f : Core → Core) (k : Nat) : (s.updCore j f).cluster k = s.cluster k := rfl
/-- The fields of a core that a change of one of its contexts leaves alone. -/
theorem core_updCtx (s : State) (k c : Nat) (f : Ctx → Ctx) (j : Nat) :
    (s.updCtx k c f).core j = if j = k then { s.core k with ctxs := (s.core k).ctxs.put c (f (s.ctx k c)) } else s.core j := by
  simp only [State.updCtx, core_updCore]
  rfl
/-- The issuing bundle's operands are read from the latch or the issuing context (R45). -/
theorem srcG_of_latch (s : State) (x : Ctx) (h : s.cur.latch = some x) (r : R5) : s.srcG r = x.readG r.toNat := by
  simp [State.srcG, State.atIssue, h]
theorem srcG_of_no_latch (s : State) (h : s.cur.latch = none) (r : R5) : s.srcG r = s.me.readG r.toNat := by
  simp [State.srcG, State.atIssue, h]

end Sys2Proof.Laws
end

