-- ==== Sys2Proof/Laws/Ops.lean ====
section
/-! SUPPORT. What each shared operation does, said once: register writes, transfers of control, waits, taking an exception, and the
queues. -/

namespace Sys2Proof.Laws

open Sys2Proof.Machine

/-! ### Frames -/

theorem sameButCtx_updCtx (s : State) (k c : Nat) (f : Ctx → Ctx) : SameButCtx s (s.updCtx k c f) k c := by
  refine ⟨fun j hj => ?_, ?_, fun d hd => ?_⟩
  · simp [core_updCtx, hj]
  · simp [core_updCtx]
  · simp [ctx_updCtx, hd]
theorem sameButCtx_updMe (s : State) (f : Ctx → Ctx) : SameButCtx s (s.updMe f) s.cur.core s.cur.ctx :=
  sameButCtx_updCtx s s.cur.core s.cur.ctx f
theorem sameButCtx_goTo (s u : State) (a : PC) (b : Bool) (k c : Nat) : SameButCtx s (u.goTo a b) k c ↔ SameButCtx s u k c := Iff.rfl
@[simp] theorem me_goTo (s : State) (a : PC) (b : Bool) : (s.goTo a b).me = s.me := rfl
@[simp] theorem my_goTo (s : State) (a : PC) (b : Bool) : (s.goTo a b).my = s.my := rfl
@[simp] theorem my_updMe_cur (s : State) (f : Ctx → Ctx) : (s.updMe f).cur = s.cur := rfl
theorem onlyMe_updMe (s : State) (f : Ctx → Ctx) : OnlyMe s (s.updMe f) :=
  ⟨fun _ => rfl, rfl, sameButCtx_updCtx _ _ _ _, rfl⟩
theorem sameOtherCores_updCore (s : State) (k : Nat) (f : Core → Core) : SameOtherCores s (s.updCore k f) k := by
  intro j hj
  simp [core_updCore, hj]
theorem sameCtxs_updCore (s : State) (k : Nat) (f : Core → Core) (h : (f (s.core k)).ctxs = (s.core k).ctxs) :
    SameCtxs s (s.updCore k f) := by
  intro j c
  simp only [State.ctx, core_updCore]
  split
  · next hj => rw [hj, h]
  · rfl
theorem onlyCore_updCore (s : State) (k : Nat) (f : Core → Core) (h : (f (s.core k)).ctxs = (s.core k).ctxs) :
    OnlyCore s (s.updCore k f) k :=
  ⟨fun _ => rfl, rfl, sameOtherCores_updCore _ _ _, sameCtxs_updCore _ _ _ h, rfl⟩
theorem onlyCore_updMy (s : State) (f : Core → Core) (h : (f (s.core s.cur.core)).ctxs = (s.core s.cur.core).ctxs) : OnlyCore s (s.updMy f) s.cur.core :=
  onlyCore_updCore _ _ _ h
@[simp] theorem my_updMy (s : State) (f : Core → Core) : (s.updMy f).my = f s.my := by
  show (s.updCore s.cur.core f).core s.cur.core = f (s.core s.cur.core)
  simp

/-! ### Register writes -/

theorem writesG_setG (s : State) (d : R5) (v : Word) : WritesG s d v (s.setG d v) := by
  refine ⟨onlyMe_updMe _ _, ?_, fun r => ?_⟩
  · rw [me_setG]
    unfold Ctx.writeG
    split <;> rfl
  · rw [me_setG, readG_writeG]
    by_cases h : r = d.toNat
    · subst h; rfl
    · simp [h]
theorem writesP_setP (s : State) (d : R5) (v : Word) : WritesP s d v (s.setP d v) := by
  refine ⟨onlyMe_updMe _ _, ?_, fun r => ?_⟩
  · rw [me_setP]; rfl
  · rw [me_setP, readP_writeP]
theorem writesV_setV (s : State) (d : R5) (v : VWord) : WritesV s d v (s.setV d v) := by
  refine ⟨onlyMe_updMe _ _, ?_, fun r => ?_⟩
  · rw [me_setV]; rfl
  · rw [me_setV, readV_writeV]

/-! ### Transfers and waits -/

theorem goesTo_goTo (s : State) (t : PC) (b : Bool) : GoesTo s t b (s.goTo t b) := ⟨rfl, rfl⟩
theorem blocksOn_block (s : State) (w : Wait) : BlocksOn s w (s.block w) := by
  refine ⟨fun _ => rfl, rfl, sameButCtx_updCtx s s.cur.core s.cur.ctx fun c => { c with run := .blocked w }, ?_, rfl⟩
  show (s.updMe fun c => { c with run := .blocked w }).me = _
  rw [me_updMe]
theorem privileged_sup (s : State) (f : State → State) (h : s.me.sup = true) : s.privileged f = f s := by
  simp [State.privileged, h]
theorem privileged_user (s : State) (f : State → State) (h : s.me.sup = false) : s.privileged f = s.trap .priv := by
  simp [State.privileged, h]

/-- With no blocked context, waking changes nothing. -/
theorem wake_none (s : State) (k : Nat) (h : NoneBlocked s k) : wake s k = s := by
  unfold wake
  generalize cyclic _ = l
  induction l with
  | nil => rfl
  | cons c t ih =>
    rw [List.foldl_cons]
    cases hr : (s.ctx k c).run with
    | blocked w => exact absurd hr (h c w)
    | _ => exact ih
/-- The mask of a `join` names a live helper (R118). -/
theorem liveHelpers_iff (s : State) (mask : BitVec 10) : liveHelpers s.my mask.toNat = true ↔
    ∃ h, 1 ≤ h ∧ h ≤ 10 ∧ mask.getLsbD (h - 1) = true ∧ (s.ctx s.cur.core h).run ≠ .free := by
  unfold liveHelpers
  simp only [List.any_eq_true, List.mem_range, Bool.and_eq_true, bne_iff_ne]
  constructor
  · rintro ⟨j, h1, h2, h3⟩
    exact ⟨j + 1, by omega, by omega, h2, h3⟩
  · rintro ⟨h, h1, h2, h3, h4⟩
    refine ⟨h - 1, by omega, h3, ?_⟩
    rw [Nat.sub_add_cancel h1]; exact h4
@[simp] theorem me_block (s : State) (w : Wait) : (s.block w).me = { s.me with run := .blocked w } := (blocksOn_block s w).2.2.2.1
/-- Two changes of one context, one after the other. -/
theorem sameButCtx_trans (s t u : State) (k c : Nat) (h : SameButCtx s t k c) (g : SameButCtx t u k c) : SameButCtx s u k c := by
  refine ⟨fun j hj => (g.1 j hj).trans (h.1 j hj), ?_, fun d hd => (g.2.2 d hd).trans (h.2.2 d hd)⟩
  have e1 := g.2.1
  have e2 := h.2.1
  rw [← e2, ← e1]

/-! ### Taking an exception (R390) -/

theorem ctx_suspend (s : State) (k c j d : Nat) : (s.suspend k c).ctx j d = s.ctx j d := by
  unfold State.suspend
  exact sameCtxs_updCore s k _ rfl j d
theorem core_suspend_other (s : State) (k c j : Nat) (h : j ≠ k) : (s.suspend k c).core j = s.core j := by
  unfold State.suspend
  exact sameOtherCores_updCore s k _ j h
@[simp] theorem trapvec_suspend (s : State) (k c : Nat) : ((s.suspend k c).core k).trapvec = (s.core k).trapvec := by
  unfold State.suspend
  simp
@[simp] theorem mem_suspend (s : State) (k c : Nat) : (s.suspend k c).mem = s.mem := rfl
@[simp] theorem cur_suspend (s : State) (k c : Nat) : (s.suspend k c).cur = s.cur := rfl
theorem sameUnits_suspend (s : State) (k c : Nat) : SameUnits s (s.suspend k c) := rfl
/-- Two changes that leave the units alone, one after the other. -/
theorem sameUnits_trans (s t u : State) (h : SameUnits s t) (g : SameUnits t u) : SameUnits s u := by
  unfold SameUnits at *
  cases s; cases t; cases u
  simp_all

/-- A trap of a context that may enter its handler enters it (R390). -/
theorem enters_takeTrap (s : State) (k c : Nat) (t : TrapInfo) (h : MayEnter s k c) :
    Enters s k c t.cause.code t.info t.after (s.takeTrap k c t) ∧ ((s.takeTrap k c t).ctx k c).cause.logix = t.logix ∧
      (s.takeTrap k c t).cur = s.cur := by
  obtain ⟨hv, hi⟩ := h
  have ht : s.takeTrap k c t = (((s.updCtx k c fun x => x.enter t (s.stamp + 2)).suspend k c).updCtx k c fun x =>
      { x with sup := true, pc := vecBase (s.core k).trapvec, run := .ready, yieldFor := [], yieldStay := [] }) := by
    unfold State.takeTrap
    simp [hi, vecEN, hv, core_updCtx]
  rw [ht]
  refine ⟨?_, ?_, ?_⟩
  · simp only [Enters, ctx_updCtx_self, ctx_suspend]
    refine ⟨rfl, List.cons_ne_nil _ _, rfl, ?_, ?_, ?_, fun d hd => ?_, fun j hj => ?_, fun a => ?_, ?_⟩
    · simp [State.suspend, State.updCtx]
    · simp [State.suspend, State.updCtx]
    · simp [State.suspend, State.updCtx]
    · rw [ctx_updCtx, if_neg (by simp [hd]), ctx_suspend, ctx_updCtx, if_neg (by simp [hd])]
    · rw [core_updCtx, if_neg hj, core_suspend_other _ _ _ _ hj, core_updCtx, if_neg hj]
    · simp
    · exact sameUnits_trans s (s.updCtx k c fun x => x.enter t (s.stamp + 2)) _ rfl
        (sameUnits_trans _ ((s.updCtx k c fun x => x.enter t (s.stamp + 2)).suspend k c) _ (sameUnits_suspend _ k c) rfl)
  · simp only [ctx_updCtx_self, ctx_suspend]
    rfl
  · simp

/-- A fault at issue enters the handler and keeps the bundle from issuing (R47, R390). -/
theorem faults_trap (s : State) (c : Cause) (info : BitVec 32) (h : MayEnter s s.cur.core s.cur.ctx) :
    Faults s c.code info (s.trap c info) := by
  obtain ⟨h1, _, h3⟩ := enters_takeTrap s s.cur.core s.cur.ctx { cause := c, info := info } h
  refine ⟨h1, c, rfl, ?_⟩
  show { (s.takeTrap s.cur.core s.cur.ctx { cause := c, info := info }).cur with out := .trap, fault := some (c, info) } = _
  rw [h3]

/-- A privileged instruction at user privilege raises PRIV (R57). -/
theorem faults_privileged (s : State) (f : State → State) (h : MayEnter s s.cur.core s.cur.ctx) (hu : s.me.sup = false) :
    Faults s 0x02 0 (s.privileged f) := by
  rw [privileged_user s f hu]
  exact faults_trap s .priv 0 h

/-! ### The turn of messages (R351, R352) -/

/-- A pair that an event leaves alone keeps its turn. -/
theorem keepsTurn_self (p : Pair) : p.keepsTurn p = true := by
  simp only [Pair.keepsTurn, BEq.rfl, Bool.or_true, Bool.true_or, Bool.and_true, Bool.or_eq_true, List.all_eq_true, decide_eq_true_eq,
    List.contains_iff_mem]
  exact Or.inr fun x hx => Or.inr hx
/-- An event that exchanges no message keeps the turn of those on their way. -/
theorem inTurn_of_net (s t : State) (hn : t.net = s.net) (hp : t.io.peerSeq = s.io.peerSeq) : s.inTurn t = true := by
  have h : ∀ key, t.pair key = s.pair key := fun key => by simp only [State.pair, hn]
  simp [State.inTurn, h, hp, keepsTurn_self]
/-- One that leaves the units alone exchanges no message. -/
theorem ifInTurn_sameUnits (s t : State) (h : SameUnits s t) : s.ifInTurn t = t := by
  have hn : t.net = s.net := by rw [← show _ = s from h]
  have hi : t.io = s.io := by rw [← show _ = s from h]
  simp [State.ifInTurn, inTurn_of_net s t hn (by rw [hi])]
/-- Where nothing is on its way, every event keeps the turn. -/
theorem inTurn_settled (s t : State) (h : Settled s) : s.inTurn t = true := by
  have hp : ∀ key, (s.pair key).deliver = (s.pair key).next ∧ (s.pair key).acked = (s.pair key).next := by
    intro key
    unfold State.pair
    obtain ⟨hn, _⟩ := h
    generalize s.net.pairs = l at hn ⊢
    induction l with
    | nil => exact ⟨rfl, rfl⟩
    | cons e l ih =>
      simp only [Tab.get, Tab.find] at ih ⊢
      split
      · next he =>
        split at he
        · cases he; exact hn e List.mem_cons_self
        · rw [he] at ih; exact ih fun x hx => hn x (List.mem_cons_of_mem _ hx)
      · exact ⟨rfl, rfl⟩
  have hq : ∀ o ∈ s.io.peerMsgs, o.acked = true := h.2
  simp only [State.inTurn, Bool.and_eq_true, List.all_eq_true, Bool.or_eq_true]
  refine ⟨fun e _ => ?_, fun e _ => Or.inr fun o ho => Or.inl (hq o ho)⟩
  simp [Pair.keepsTurn, (hp e.1).1, (hp e.1).2]
theorem ifInTurn_settled (s t : State) (h : Settled s) : s.ifInTurn t = t := by
  simp [State.ifInTurn, inTurn_settled s t h]

/-! ### The Mill's arbiter (R238) -/

/-- The arbiter moves nothing but its own place. -/
theorem sameUnitsButTurn_leaveTurn (s : State) (cl j n : Nat) :
    SameUnitsButTurn s (leaveTurn s cl j n) ∧ (leaveTurn s cl j n).cores = s.cores ∧ (leaveTurn s cl j n).mem = s.mem := by
  refine ⟨⟨rfl, fun c => ?_⟩, rfl, rfl⟩
  unfold leaveTurn
  rw [cluster_updCluster]
  split
  · next h => subst h; split <;> rfl
  · rfl

/-! ### System software (R393) -/

/-- A write by system software changes one context of one core. -/
theorem sameMem_editCtx (k c : Nat) (s : State) (e : Edit) (h : ∀ n v, e ≠ .sys n v) :
    SameMem s (editCtx k c s e) ∧ SameUnits s (editCtx k c s e) ∧ SameButCtx s (editCtx k c s e) k c := by
  cases e with
  | sys n v => exact absurd rfl (h n v)
  | _ => exact ⟨fun _ => rfl, rfl, sameButCtx_updCtx _ _ _ _⟩

end Sys2Proof.Laws
end

