-- ==== Sys2Proof/Laws/PerInstr.lean ====
section
/-! SUPPORT. One lemma per instruction: it has an encoding exactly where the manual gives it one, as the C slot, the A slot or the
test access port reads it; an event has none. -/

namespace Sys2Proof.Laws

/-- R46, R49, R449: the encoders give a word for the instructions of their own place, and for no other. -/
def Encoding.Statement (i : Instr) : Prop :=
  (encodeC i).isSome = decide (i.place = .c) ∧ (encodeA i).isSome = decide (i.place = .a) ∧
    (encodeTap i).isSome = decide (i.place = .tap)

theorem Encoding.nop : Encoding.Statement .nop := ⟨rfl, rfl, rfl⟩
theorem Encoding.br : ∀ x0, Encoding.Statement (.br x0) := fun _ => ⟨rfl, rfl, rfl⟩
theorem Encoding.call : ∀ x0, Encoding.Statement (.call x0) := fun _ => ⟨rfl, rfl, rfl⟩
theorem Encoding.jr : ∀ x0, Encoding.Statement (.jr x0) := fun _ => ⟨rfl, rfl, rfl⟩
theorem Encoding.callr : ∀ x0, Encoding.Statement (.callr x0) := fun _ => ⟨rfl, rfl, rfl⟩
theorem Encoding.ret : Encoding.Statement .ret := ⟨rfl, rfl, rfl⟩
theorem Encoding.beq : ∀ x0 x1 x2, Encoding.Statement (.beq x0 x1 x2) := fun _ _ _ => ⟨rfl, rfl, rfl⟩
theorem Encoding.bne : ∀ x0 x1 x2, Encoding.Statement (.bne x0 x1 x2) := fun _ _ _ => ⟨rfl, rfl, rfl⟩
theorem Encoding.blt : ∀ x0 x1 x2, Encoding.Statement (.blt x0 x1 x2) := fun _ _ _ => ⟨rfl, rfl, rfl⟩
theorem Encoding.bge : ∀ x0 x1 x2, Encoding.Statement (.bge x0 x1 x2) := fun _ _ _ => ⟨rfl, rfl, rfl⟩
theorem Encoding.bltn : ∀ x0 x1 x2, Encoding.Statement (.bltn x0 x1 x2) := fun _ _ _ => ⟨rfl, rfl, rfl⟩
theorem Encoding.bgen : ∀ x0 x1 x2, Encoding.Statement (.bgen x0 x1 x2) := fun _ _ _ => ⟨rfl, rfl, rfl⟩
theorem Encoding.loop : ∀ x0 x1, Encoding.Statement (.loop x0 x1) := fun _ _ => ⟨rfl, rfl, rfl⟩
theorem Encoding.rep : ∀ x0 x1 x2, Encoding.Statement (.rep x0 x1 x2) := fun _ _ _ => ⟨rfl, rfl, rfl⟩
theorem Encoding.trap : ∀ x0, Encoding.Statement (.trap x0) := fun _ => ⟨rfl, rfl, rfl⟩
theorem Encoding.eret : Encoding.Statement .eret := ⟨rfl, rfl, rfl⟩
theorem Encoding.start : ∀ x0 x1 x2, Encoding.Statement (.start x0 x1 x2) := fun _ _ _ => ⟨rfl, rfl, rfl⟩
theorem Encoding.join : ∀ x0, Encoding.Statement (.join x0) := fun _ => ⟨rfl, rfl, rfl⟩
theorem Encoding.hend : Encoding.Statement .hend := ⟨rfl, rfl, rfl⟩
theorem Encoding.yield : Encoding.Statement .yield := ⟨rfl, rfl, rfl⟩
theorem Encoding.done : ∀ x0 x1, Encoding.Statement (.done x0 x1) := fun _ _ => ⟨rfl, rfl, rfl⟩
theorem Encoding.tend : ∀ x0, Encoding.Statement (.tend x0) := fun _ => ⟨rfl, rfl, rfl⟩
theorem Encoding.wfi : Encoding.Statement .wfi := ⟨rfl, rfl, rfl⟩
theorem Encoding.mfs : ∀ x0 x1, Encoding.Statement (.mfs x0 x1) := fun _ _ => ⟨rfl, rfl, rfl⟩
theorem Encoding.mts : ∀ x0 x1, Encoding.Statement (.mts x0 x1) := fun _ _ => ⟨rfl, rfl, rfl⟩
theorem Encoding.tlbinv : ∀ x0 x1 x2 x3, Encoding.Statement (.tlbinv x0 x1 x2 x3) := fun _ _ _ _ => ⟨rfl, rfl, rfl⟩
theorem Encoding.save : ∀ x0 x1 x2, Encoding.Statement (.save x0 x1 x2) := fun _ _ _ => ⟨rfl, rfl, rfl⟩
theorem Encoding.saveRes : ∀ x0 x1 x2, Encoding.Statement (.saveRes x0 x1 x2) := fun _ _ _ => ⟨rfl, rfl, rfl⟩
theorem Encoding.rest : ∀ x0 x1 x2, Encoding.Statement (.rest x0 x1 x2) := fun _ _ _ => ⟨rfl, rfl, rfl⟩
theorem Encoding.curf : ∀ x0 x1 x2, Encoding.Statement (.curf x0 x1 x2) := fun _ _ _ => ⟨rfl, rfl, rfl⟩
theorem Encoding.spawn : ∀ x0 x1 x2, Encoding.Statement (.spawn x0 x1 x2) := fun _ _ _ => ⟨rfl, rfl, rfl⟩
theorem Encoding.gang : ∀ x0 x1 x2, Encoding.Statement (.gang x0 x1 x2) := fun _ _ _ => ⟨rfl, rfl, rfl⟩
theorem Encoding.tlate : ∀ x0, Encoding.Statement (.tlate x0) := fun _ => ⟨rfl, rfl, rfl⟩
theorem Encoding.tlateSet : ∀ x0 x1, Encoding.Statement (.tlateSet x0 x1) := fun _ _ => ⟨rfl, rfl, rfl⟩
theorem Encoding.ldb : ∀ x0 x1 x2, Encoding.Statement (.ldb x0 x1 x2) := fun _ _ _ => ⟨rfl, rfl, rfl⟩
theorem Encoding.ldbn : ∀ x0 x1 x2, Encoding.Statement (.ldbn x0 x1 x2) := fun _ _ _ => ⟨rfl, rfl, rfl⟩
theorem Encoding.ldh : ∀ x0 x1 x2, Encoding.Statement (.ldh x0 x1 x2) := fun _ _ _ => ⟨rfl, rfl, rfl⟩
theorem Encoding.ldhn : ∀ x0 x1 x2, Encoding.Statement (.ldhn x0 x1 x2) := fun _ _ _ => ⟨rfl, rfl, rfl⟩
theorem Encoding.ldw : ∀ x0 x1 x2, Encoding.Statement (.ldw x0 x1 x2) := fun _ _ _ => ⟨rfl, rfl, rfl⟩
theorem Encoding.ldwn : ∀ x0 x1 x2, Encoding.Statement (.ldwn x0 x1 x2) := fun _ _ _ => ⟨rfl, rfl, rfl⟩
theorem Encoding.ldd : ∀ x0 x1 x2, Encoding.Statement (.ldd x0 x1 x2) := fun _ _ _ => ⟨rfl, rfl, rfl⟩
theorem Encoding.ldq : ∀ x0 x1 x2, Encoding.Statement (.ldq x0 x1 x2) := fun _ _ _ => ⟨rfl, rfl, rfl⟩
theorem Encoding.ldv : ∀ x0 x1 x2, Encoding.Statement (.ldv x0 x1 x2) := fun _ _ _ => ⟨rfl, rfl, rfl⟩
theorem Encoding.stb : ∀ x0 x1 x2, Encoding.Statement (.stb x0 x1 x2) := fun _ _ _ => ⟨rfl, rfl, rfl⟩
theorem Encoding.sth : ∀ x0 x1 x2, Encoding.Statement (.sth x0 x1 x2) := fun _ _ _ => ⟨rfl, rfl, rfl⟩
theorem Encoding.stw : ∀ x0 x1 x2, Encoding.Statement (.stw x0 x1 x2) := fun _ _ _ => ⟨rfl, rfl, rfl⟩
theorem Encoding.std : ∀ x0 x1 x2, Encoding.Statement (.std x0 x1 x2) := fun _ _ _ => ⟨rfl, rfl, rfl⟩
theorem Encoding.stq : ∀ x0 x1 x2, Encoding.Statement (.stq x0 x1 x2) := fun _ _ _ => ⟨rfl, rfl, rfl⟩
theorem Encoding.stv : ∀ x0 x1 x2, Encoding.Statement (.stv x0 x1 x2) := fun _ _ _ => ⟨rfl, rfl, rfl⟩
theorem Encoding.fetch : ∀ x0 x1 x2, Encoding.Statement (.fetch x0 x1 x2) := fun _ _ _ => ⟨rfl, rfl, rfl⟩
theorem Encoding.rldw : ∀ x0 x1 x2, Encoding.Statement (.rldw x0 x1 x2) := fun _ _ _ => ⟨rfl, rfl, rfl⟩
theorem Encoding.rldd : ∀ x0 x1 x2, Encoding.Statement (.rldd x0 x1 x2) := fun _ _ _ => ⟨rfl, rfl, rfl⟩
theorem Encoding.rstw : ∀ x0 x1 x2, Encoding.Statement (.rstw x0 x1 x2) := fun _ _ _ => ⟨rfl, rfl, rfl⟩
theorem Encoding.rstd : ∀ x0 x1 x2, Encoding.Statement (.rstd x0 x1 x2) := fun _ _ _ => ⟨rfl, rfl, rfl⟩
theorem Encoding.aadd : ∀ x0 x1 x2 x3 x4 x5, Encoding.Statement (.aadd x0 x1 x2 x3 x4 x5) := fun _ _ _ _ _ _ => ⟨rfl, rfl, rfl⟩
theorem Encoding.aand : ∀ x0 x1 x2 x3 x4 x5, Encoding.Statement (.aand x0 x1 x2 x3 x4 x5) := fun _ _ _ _ _ _ => ⟨rfl, rfl, rfl⟩
theorem Encoding.aor : ∀ x0 x1 x2 x3 x4 x5, Encoding.Statement (.aor x0 x1 x2 x3 x4 x5) := fun _ _ _ _ _ _ => ⟨rfl, rfl, rfl⟩
theorem Encoding.axor : ∀ x0 x1 x2 x3 x4 x5, Encoding.Statement (.axor x0 x1 x2 x3 x4 x5) := fun _ _ _ _ _ _ => ⟨rfl, rfl, rfl⟩
theorem Encoding.amin : ∀ x0 x1 x2 x3 x4 x5, Encoding.Statement (.amin x0 x1 x2 x3 x4 x5) := fun _ _ _ _ _ _ => ⟨rfl, rfl, rfl⟩
theorem Encoding.amax : ∀ x0 x1 x2 x3 x4 x5, Encoding.Statement (.amax x0 x1 x2 x3 x4 x5) := fun _ _ _ _ _ _ => ⟨rfl, rfl, rfl⟩
theorem Encoding.aswp : ∀ x0 x1 x2 x3 x4 x5, Encoding.Statement (.aswp x0 x1 x2 x3 x4 x5) := fun _ _ _ _ _ _ => ⟨rfl, rfl, rfl⟩
theorem Encoding.acas : ∀ x0 x1 x2 x3 x4 x5, Encoding.Statement (.acas x0 x1 x2 x3 x4 x5) := fun _ _ _ _ _ _ => ⟨rfl, rfl, rfl⟩
theorem Encoding.frd : ∀ x0 x1, Encoding.Statement (.frd x0 x1) := fun _ _ => ⟨rfl, rfl, rfl⟩
theorem Encoding.fwr : ∀ x0 x1 x2, Encoding.Statement (.fwr x0 x1 x2) := fun _ _ _ => ⟨rfl, rfl, rfl⟩
theorem Encoding.fence : ∀ x0 x1, Encoding.Statement (.fence x0 x1) := fun _ _ => ⟨rfl, rfl, rfl⟩
theorem Encoding.qfence : ∀ x0, Encoding.Statement (.qfence x0) := fun _ => ⟨rfl, rfl, rfl⟩
theorem Encoding.cwb : ∀ x0 x1 x2, Encoding.Statement (.cwb x0 x1 x2) := fun _ _ _ => ⟨rfl, rfl, rfl⟩
theorem Encoding.cinv : ∀ x0 x1 x2, Encoding.Statement (.cinv x0 x1 x2) := fun _ _ _ => ⟨rfl, rfl, rfl⟩
theorem Encoding.cwbi : ∀ x0 x1 x2, Encoding.Statement (.cwbi x0 x1 x2) := fun _ _ _ => ⟨rfl, rfl, rfl⟩
theorem Encoding.cpin : ∀ x0 x1 x2, Encoding.Statement (.cpin x0 x1 x2) := fun _ _ _ => ⟨rfl, rfl, rfl⟩
theorem Encoding.cunpin : ∀ x0 x1 x2, Encoding.Statement (.cunpin x0 x1 x2) := fun _ _ _ => ⟨rfl, rfl, rfl⟩
theorem Encoding.pref : ∀ x0 x1 x2, Encoding.Statement (.pref x0 x1 x2) := fun _ _ _ => ⟨rfl, rfl, rfl⟩
theorem Encoding.cpgo : ∀ x0, Encoding.Statement (.cpgo x0) := fun _ => ⟨rfl, rfl, rfl⟩
theorem Encoding.sacq : ∀ x0, Encoding.Statement (.sacq x0) := fun _ => ⟨rfl, rfl, rfl⟩
theorem Encoding.srel : ∀ x0 x1 x2, Encoding.Statement (.srel x0 x1 x2) := fun _ _ _ => ⟨rfl, rfl, rfl⟩
theorem Encoding.sget : ∀ x0 x1 x2, Encoding.Statement (.sget x0 x1 x2) := fun _ _ _ => ⟨rfl, rfl, rfl⟩
theorem Encoding.bell : ∀ x0 x1, Encoding.Statement (.bell x0 x1) := fun _ _ => ⟨rfl, rfl, rfl⟩
theorem Encoding.bwait : ∀ x0, Encoding.Statement (.bwait x0) := fun _ => ⟨rfl, rfl, rfl⟩
theorem Encoding.sstep : Encoding.Statement .sstep := ⟨rfl, rfl, rfl⟩
theorem Encoding.xsend : ∀ x0 x1 x2, Encoding.Statement (.xsend x0 x1 x2) := fun _ _ _ => ⟨rfl, rfl, rfl⟩
theorem Encoding.greq : ∀ x0 x1 x2, Encoding.Statement (.greq x0 x1 x2) := fun _ _ _ => ⟨rfl, rfl, rfl⟩
theorem Encoding.collBar : ∀ x0 x1, Encoding.Statement (.collBar x0 x1) := fun _ _ => ⟨rfl, rfl, rfl⟩
theorem Encoding.collAg : ∀ x0 x1, Encoding.Statement (.collAg x0 x1) := fun _ _ => ⟨rfl, rfl, rfl⟩
theorem Encoding.collRs : ∀ x0 x1 x2 x3, Encoding.Statement (.collRs x0 x1 x2 x3) := fun _ _ _ _ => ⟨rfl, rfl, rfl⟩
theorem Encoding.collA2a : ∀ x0 x1, Encoding.Statement (.collA2a x0 x1) := fun _ _ => ⟨rfl, rfl, rfl⟩
theorem Encoding.glset : ∀ x0 x1 x2, Encoding.Statement (.glset x0 x1 x2) := fun _ _ _ => ⟨rfl, rfl, rfl⟩
theorem Encoding.glrun : ∀ x0 x1, Encoding.Statement (.glrun x0 x1) := fun _ _ => ⟨rfl, rfl, rfl⟩
theorem Encoding.glfoot : ∀ x0 x1, Encoding.Statement (.glfoot x0 x1) := fun _ _ => ⟨rfl, rfl, rfl⟩
theorem Encoding.glfootV : ∀ x0 x1, Encoding.Statement (.glfootV x0 x1) := fun _ _ => ⟨rfl, rfl, rfl⟩
theorem Encoding.glnext : Encoding.Statement .glnext := ⟨rfl, rfl, rfl⟩
theorem Encoding.glend : ∀ x0, Encoding.Statement (.glend x0) := fun _ => ⟨rfl, rfl, rfl⟩
theorem Encoding.ldbx : ∀ x0 x1 x2 x3 x4 x5, Encoding.Statement (.ldbx x0 x1 x2 x3 x4 x5) := fun _ _ _ _ _ _ => ⟨rfl, rfl, rfl⟩
theorem Encoding.ldbnx : ∀ x0 x1 x2 x3 x4 x5, Encoding.Statement (.ldbnx x0 x1 x2 x3 x4 x5) := fun _ _ _ _ _ _ => ⟨rfl, rfl, rfl⟩
theorem Encoding.ldhx : ∀ x0 x1 x2 x3 x4 x5, Encoding.Statement (.ldhx x0 x1 x2 x3 x4 x5) := fun _ _ _ _ _ _ => ⟨rfl, rfl, rfl⟩
theorem Encoding.ldhnx : ∀ x0 x1 x2 x3 x4 x5, Encoding.Statement (.ldhnx x0 x1 x2 x3 x4 x5) := fun _ _ _ _ _ _ => ⟨rfl, rfl, rfl⟩
theorem Encoding.ldwx : ∀ x0 x1 x2 x3 x4 x5, Encoding.Statement (.ldwx x0 x1 x2 x3 x4 x5) := fun _ _ _ _ _ _ => ⟨rfl, rfl, rfl⟩
theorem Encoding.ldwnx : ∀ x0 x1 x2 x3 x4 x5, Encoding.Statement (.ldwnx x0 x1 x2 x3 x4 x5) := fun _ _ _ _ _ _ => ⟨rfl, rfl, rfl⟩
theorem Encoding.lddx : ∀ x0 x1 x2 x3 x4 x5, Encoding.Statement (.lddx x0 x1 x2 x3 x4 x5) := fun _ _ _ _ _ _ => ⟨rfl, rfl, rfl⟩
theorem Encoding.ldqx : ∀ x0 x1 x2 x3 x4 x5, Encoding.Statement (.ldqx x0 x1 x2 x3 x4 x5) := fun _ _ _ _ _ _ => ⟨rfl, rfl, rfl⟩
theorem Encoding.ldvx : ∀ x0 x1 x2 x3 x4 x5, Encoding.Statement (.ldvx x0 x1 x2 x3 x4 x5) := fun _ _ _ _ _ _ => ⟨rfl, rfl, rfl⟩
theorem Encoding.stbx : ∀ x0 x1 x2 x3 x4 x5, Encoding.Statement (.stbx x0 x1 x2 x3 x4 x5) := fun _ _ _ _ _ _ => ⟨rfl, rfl, rfl⟩
theorem Encoding.sthx : ∀ x0 x1 x2 x3 x4 x5, Encoding.Statement (.sthx x0 x1 x2 x3 x4 x5) := fun _ _ _ _ _ _ => ⟨rfl, rfl, rfl⟩
theorem Encoding.stwx : ∀ x0 x1 x2 x3 x4 x5, Encoding.Statement (.stwx x0 x1 x2 x3 x4 x5) := fun _ _ _ _ _ _ => ⟨rfl, rfl, rfl⟩
theorem Encoding.stdx : ∀ x0 x1 x2 x3 x4 x5, Encoding.Statement (.stdx x0 x1 x2 x3 x4 x5) := fun _ _ _ _ _ _ => ⟨rfl, rfl, rfl⟩
theorem Encoding.stqx : ∀ x0 x1 x2 x3 x4 x5, Encoding.Statement (.stqx x0 x1 x2 x3 x4 x5) := fun _ _ _ _ _ _ => ⟨rfl, rfl, rfl⟩
theorem Encoding.stvx : ∀ x0 x1 x2 x3 x4 x5, Encoding.Statement (.stvx x0 x1 x2 x3 x4 x5) := fun _ _ _ _ _ _ => ⟨rfl, rfl, rfl⟩
theorem Encoding.nopA : Encoding.Statement .nopA := ⟨rfl, rfl, rfl⟩
theorem Encoding.add : ∀ x0 x1 x2 x3, Encoding.Statement (.add x0 x1 x2 x3) := fun _ _ _ _ => ⟨rfl, rfl, rfl⟩
theorem Encoding.sub : ∀ x0 x1 x2 x3, Encoding.Statement (.sub x0 x1 x2 x3) := fun _ _ _ _ => ⟨rfl, rfl, rfl⟩
theorem Encoding.and : ∀ x0 x1 x2 x3, Encoding.Statement (.and x0 x1 x2 x3) := fun _ _ _ _ => ⟨rfl, rfl, rfl⟩
theorem Encoding.or : ∀ x0 x1 x2 x3, Encoding.Statement (.or x0 x1 x2 x3) := fun _ _ _ _ => ⟨rfl, rfl, rfl⟩
theorem Encoding.xor : ∀ x0 x1 x2 x3, Encoding.Statement (.xor x0 x1 x2 x3) := fun _ _ _ _ => ⟨rfl, rfl, rfl⟩
theorem Encoding.andn : ∀ x0 x1 x2 x3, Encoding.Statement (.andn x0 x1 x2 x3) := fun _ _ _ _ => ⟨rfl, rfl, rfl⟩
theorem Encoding.shl : ∀ x0 x1 x2 x3, Encoding.Statement (.shl x0 x1 x2 x3) := fun _ _ _ _ => ⟨rfl, rfl, rfl⟩
theorem Encoding.shr : ∀ x0 x1 x2 x3, Encoding.Statement (.shr x0 x1 x2 x3) := fun _ _ _ _ => ⟨rfl, rfl, rfl⟩
theorem Encoding.sra : ∀ x0 x1 x2 x3, Encoding.Statement (.sra x0 x1 x2 x3) := fun _ _ _ _ => ⟨rfl, rfl, rfl⟩
theorem Encoding.mul : ∀ x0 x1 x2 x3, Encoding.Statement (.mul x0 x1 x2 x3) := fun _ _ _ _ => ⟨rfl, rfl, rfl⟩
theorem Encoding.mulh : ∀ x0 x1 x2 x3, Encoding.Statement (.mulh x0 x1 x2 x3) := fun _ _ _ _ => ⟨rfl, rfl, rfl⟩
theorem Encoding.div : ∀ x0 x1 x2 x3, Encoding.Statement (.div x0 x1 x2 x3) := fun _ _ _ _ => ⟨rfl, rfl, rfl⟩
theorem Encoding.rem : ∀ x0 x1 x2 x3, Encoding.Statement (.rem x0 x1 x2 x3) := fun _ _ _ _ => ⟨rfl, rfl, rfl⟩
theorem Encoding.min : ∀ x0 x1 x2 x3, Encoding.Statement (.min x0 x1 x2 x3) := fun _ _ _ _ => ⟨rfl, rfl, rfl⟩
theorem Encoding.max : ∀ x0 x1 x2 x3, Encoding.Statement (.max x0 x1 x2 x3) := fun _ _ _ _ => ⟨rfl, rfl, rfl⟩
theorem Encoding.seq : ∀ x0 x1 x2 x3, Encoding.Statement (.seq x0 x1 x2 x3) := fun _ _ _ _ => ⟨rfl, rfl, rfl⟩
theorem Encoding.sne : ∀ x0 x1 x2 x3, Encoding.Statement (.sne x0 x1 x2 x3) := fun _ _ _ _ => ⟨rfl, rfl, rfl⟩
theorem Encoding.slt : ∀ x0 x1 x2 x3, Encoding.Statement (.slt x0 x1 x2 x3) := fun _ _ _ _ => ⟨rfl, rfl, rfl⟩
theorem Encoding.sle : ∀ x0 x1 x2 x3, Encoding.Statement (.sle x0 x1 x2 x3) := fun _ _ _ _ => ⟨rfl, rfl, rfl⟩
theorem Encoding.sel : ∀ x0 x1 x2 x3, Encoding.Statement (.sel x0 x1 x2 x3) := fun _ _ _ _ => ⟨rfl, rfl, rfl⟩
theorem Encoding.popc : ∀ x0 x1 x2, Encoding.Statement (.popc x0 x1 x2) := fun _ _ _ => ⟨rfl, rfl, rfl⟩
theorem Encoding.clz : ∀ x0 x1 x2, Encoding.Statement (.clz x0 x1 x2) := fun _ _ _ => ⟨rfl, rfl, rfl⟩
theorem Encoding.ctz : ∀ x0 x1 x2, Encoding.Statement (.ctz x0 x1 x2) := fun _ _ _ => ⟨rfl, rfl, rfl⟩
theorem Encoding.ext : ∀ x0 x1 x2, Encoding.Statement (.ext x0 x1 x2) := fun _ _ _ => ⟨rfl, rfl, rfl⟩
theorem Encoding.rol : ∀ x0 x1 x2 x3, Encoding.Statement (.rol x0 x1 x2 x3) := fun _ _ _ _ => ⟨rfl, rfl, rfl⟩
theorem Encoding.ror : ∀ x0 x1 x2 x3, Encoding.Statement (.ror x0 x1 x2 x3) := fun _ _ _ _ => ⟨rfl, rfl, rfl⟩
theorem Encoding.bswap : ∀ x0 x1 x2, Encoding.Statement (.bswap x0 x1 x2) := fun _ _ _ => ⟨rfl, rfl, rfl⟩
theorem Encoding.bext : ∀ x0 x1 x2 x3, Encoding.Statement (.bext x0 x1 x2 x3) := fun _ _ _ _ => ⟨rfl, rfl, rfl⟩
theorem Encoding.bins : ∀ x0 x1 x2 x3, Encoding.Statement (.bins x0 x1 x2 x3) := fun _ _ _ _ => ⟨rfl, rfl, rfl⟩
theorem Encoding.abs : ∀ x0 x1 x2, Encoding.Statement (.abs x0 x1 x2) := fun _ _ _ => ⟨rfl, rfl, rfl⟩
theorem Encoding.movi : ∀ x0 x1, Encoding.Statement (.movi x0 x1) := fun _ _ => ⟨rfl, rfl, rfl⟩
theorem Encoding.lui : ∀ x0 x1 x2, Encoding.Statement (.lui x0 x1 x2) := fun _ _ _ => ⟨rfl, rfl, rfl⟩
theorem Encoding.addi : ∀ x0 x1 x2, Encoding.Statement (.addi x0 x1 x2) := fun _ _ _ => ⟨rfl, rfl, rfl⟩
theorem Encoding.andi : ∀ x0 x1 x2, Encoding.Statement (.andi x0 x1 x2) := fun _ _ _ => ⟨rfl, rfl, rfl⟩
theorem Encoding.ori : ∀ x0 x1 x2, Encoding.Statement (.ori x0 x1 x2) := fun _ _ _ => ⟨rfl, rfl, rfl⟩
theorem Encoding.xori : ∀ x0 x1 x2, Encoding.Statement (.xori x0 x1 x2) := fun _ _ _ => ⟨rfl, rfl, rfl⟩
theorem Encoding.shli : ∀ x0 x1 x2, Encoding.Statement (.shli x0 x1 x2) := fun _ _ _ => ⟨rfl, rfl, rfl⟩
theorem Encoding.shri : ∀ x0 x1 x2, Encoding.Statement (.shri x0 x1 x2) := fun _ _ _ => ⟨rfl, rfl, rfl⟩
theorem Encoding.srai : ∀ x0 x1 x2, Encoding.Statement (.srai x0 x1 x2) := fun _ _ _ => ⟨rfl, rfl, rfl⟩
theorem Encoding.rori : ∀ x0 x1 x2, Encoding.Statement (.rori x0 x1 x2) := fun _ _ _ => ⟨rfl, rfl, rfl⟩
theorem Encoding.muli : ∀ x0 x1 x2, Encoding.Statement (.muli x0 x1 x2) := fun _ _ _ => ⟨rfl, rfl, rfl⟩
theorem Encoding.slti : ∀ x0 x1 x2, Encoding.Statement (.slti x0 x1 x2) := fun _ _ _ => ⟨rfl, rfl, rfl⟩
theorem Encoding.sltin : ∀ x0 x1 x2, Encoding.Statement (.sltin x0 x1 x2) := fun _ _ _ => ⟨rfl, rfl, rfl⟩
theorem Encoding.seqi : ∀ x0 x1 x2, Encoding.Statement (.seqi x0 x1 x2) := fun _ _ _ => ⟨rfl, rfl, rfl⟩
theorem Encoding.vadd : ∀ x0 x1 x2 x3 x4 x5, Encoding.Statement (.vadd x0 x1 x2 x3 x4 x5) := fun _ _ _ _ _ _ => ⟨rfl, rfl, rfl⟩
theorem Encoding.vsub : ∀ x0 x1 x2 x3 x4 x5, Encoding.Statement (.vsub x0 x1 x2 x3 x4 x5) := fun _ _ _ _ _ _ => ⟨rfl, rfl, rfl⟩
theorem Encoding.vmul : ∀ x0 x1 x2 x3 x4 x5, Encoding.Statement (.vmul x0 x1 x2 x3 x4 x5) := fun _ _ _ _ _ _ => ⟨rfl, rfl, rfl⟩
theorem Encoding.vdiv : ∀ x0 x1 x2 x3 x4 x5, Encoding.Statement (.vdiv x0 x1 x2 x3 x4 x5) := fun _ _ _ _ _ _ => ⟨rfl, rfl, rfl⟩
theorem Encoding.vmin : ∀ x0 x1 x2 x3 x4, Encoding.Statement (.vmin x0 x1 x2 x3 x4) := fun _ _ _ _ _ => ⟨rfl, rfl, rfl⟩
theorem Encoding.vmax : ∀ x0 x1 x2 x3 x4, Encoding.Statement (.vmax x0 x1 x2 x3 x4) := fun _ _ _ _ _ => ⟨rfl, rfl, rfl⟩
theorem Encoding.vabs : ∀ x0 x1 x2 x3, Encoding.Statement (.vabs x0 x1 x2 x3) := fun _ _ _ _ => ⟨rfl, rfl, rfl⟩
theorem Encoding.vneg : ∀ x0 x1 x2 x3, Encoding.Statement (.vneg x0 x1 x2 x3) := fun _ _ _ _ => ⟨rfl, rfl, rfl⟩
theorem Encoding.vfma : ∀ x0 x1 x2 x3 x4 x5, Encoding.Statement (.vfma x0 x1 x2 x3 x4 x5) := fun _ _ _ _ _ _ => ⟨rfl, rfl, rfl⟩
theorem Encoding.vfms : ∀ x0 x1 x2 x3 x4 x5, Encoding.Statement (.vfms x0 x1 x2 x3 x4 x5) := fun _ _ _ _ _ _ => ⟨rfl, rfl, rfl⟩
theorem Encoding.vsqrt : ∀ x0 x1 x2 x3 x4, Encoding.Statement (.vsqrt x0 x1 x2 x3 x4) := fun _ _ _ _ _ => ⟨rfl, rfl, rfl⟩
theorem Encoding.vand : ∀ x0 x1 x2 x3 x4, Encoding.Statement (.vand x0 x1 x2 x3 x4) := fun _ _ _ _ _ => ⟨rfl, rfl, rfl⟩
theorem Encoding.vor : ∀ x0 x1 x2 x3 x4, Encoding.Statement (.vor x0 x1 x2 x3 x4) := fun _ _ _ _ _ => ⟨rfl, rfl, rfl⟩
theorem Encoding.vxor : ∀ x0 x1 x2 x3 x4, Encoding.Statement (.vxor x0 x1 x2 x3 x4) := fun _ _ _ _ _ => ⟨rfl, rfl, rfl⟩
theorem Encoding.vshl : ∀ x0 x1 x2 x3 x4, Encoding.Statement (.vshl x0 x1 x2 x3 x4) := fun _ _ _ _ _ => ⟨rfl, rfl, rfl⟩
theorem Encoding.vshr : ∀ x0 x1 x2 x3 x4, Encoding.Statement (.vshr x0 x1 x2 x3 x4) := fun _ _ _ _ _ => ⟨rfl, rfl, rfl⟩
theorem Encoding.vcvt : ∀ x0 x1 x2 x3 x4 x5, Encoding.Statement (.vcvt x0 x1 x2 x3 x4 x5) := fun _ _ _ _ _ _ => ⟨rfl, rfl, rfl⟩
theorem Encoding.vceq : ∀ x0 x1 x2 x3 x4, Encoding.Statement (.vceq x0 x1 x2 x3 x4) := fun _ _ _ _ _ => ⟨rfl, rfl, rfl⟩
theorem Encoding.vcne : ∀ x0 x1 x2 x3 x4, Encoding.Statement (.vcne x0 x1 x2 x3 x4) := fun _ _ _ _ _ => ⟨rfl, rfl, rfl⟩
theorem Encoding.vclt : ∀ x0 x1 x2 x3 x4, Encoding.Statement (.vclt x0 x1 x2 x3 x4) := fun _ _ _ _ _ => ⟨rfl, rfl, rfl⟩
theorem Encoding.vcle : ∀ x0 x1 x2 x3 x4, Encoding.Statement (.vcle x0 x1 x2 x3 x4) := fun _ _ _ _ _ => ⟨rfl, rfl, rfl⟩
theorem Encoding.vsel : ∀ x0 x1 x2 x3 x4, Encoding.Statement (.vsel x0 x1 x2 x3 x4) := fun _ _ _ _ _ => ⟨rfl, rfl, rfl⟩
theorem Encoding.vrsum : ∀ x0 x1 x2 x3 x4, Encoding.Statement (.vrsum x0 x1 x2 x3 x4) := fun _ _ _ _ _ => ⟨rfl, rfl, rfl⟩
theorem Encoding.vrmin : ∀ x0 x1 x2 x3, Encoding.Statement (.vrmin x0 x1 x2 x3) := fun _ _ _ _ => ⟨rfl, rfl, rfl⟩
theorem Encoding.vrmax : ∀ x0 x1 x2 x3, Encoding.Statement (.vrmax x0 x1 x2 x3) := fun _ _ _ _ => ⟨rfl, rfl, rfl⟩
theorem Encoding.vperm : ∀ x0 x1 x2 x3 x4, Encoding.Statement (.vperm x0 x1 x2 x3 x4) := fun _ _ _ _ _ => ⟨rfl, rfl, rfl⟩
theorem Encoding.vbcast : ∀ x0 x1 x2 x3, Encoding.Statement (.vbcast x0 x1 x2 x3) := fun _ _ _ _ => ⟨rfl, rfl, rfl⟩
theorem Encoding.vslide : ∀ x0 x1 x2 x3 x4, Encoding.Statement (.vslide x0 x1 x2 x3 x4) := fun _ _ _ _ _ => ⟨rfl, rfl, rfl⟩
theorem Encoding.vgat : ∀ x0 x1 x2 x3 x4, Encoding.Statement (.vgat x0 x1 x2 x3 x4) := fun _ _ _ _ _ => ⟨rfl, rfl, rfl⟩
theorem Encoding.vsct : ∀ x0 x1 x2 x3 x4, Encoding.Statement (.vsct x0 x1 x2 x3 x4) := fun _ _ _ _ _ => ⟨rfl, rfl, rfl⟩
theorem Encoding.vextg : ∀ x0 x1 x2 x3, Encoding.Statement (.vextg x0 x1 x2 x3) := fun _ _ _ _ => ⟨rfl, rfl, rfl⟩
theorem Encoding.vinsg : ∀ x0 x1 x2 x3, Encoding.Statement (.vinsg x0 x1 x2 x3) := fun _ _ _ _ => ⟨rfl, rfl, rfl⟩
theorem Encoding.aget : ∀ x0 x1 x2, Encoding.Statement (.aget x0 x1 x2) := fun _ _ _ => ⟨rfl, rfl, rfl⟩
theorem Encoding.aput : ∀ x0 x1 x2, Encoding.Statement (.aput x0 x1 x2) := fun _ _ _ => ⟨rfl, rfl, rfl⟩
theorem Encoding.sisect : ∀ x0 x1 x2 x3 x4, Encoding.Statement (.sisect x0 x1 x2 x3 x4) := fun _ _ _ _ _ => ⟨rfl, rfl, rfl⟩
theorem Encoding.pand : ∀ x0 x1 x2, Encoding.Statement (.pand x0 x1 x2) := fun _ _ _ => ⟨rfl, rfl, rfl⟩
theorem Encoding.por : ∀ x0 x1 x2, Encoding.Statement (.por x0 x1 x2) := fun _ _ _ => ⟨rfl, rfl, rfl⟩
theorem Encoding.pxor : ∀ x0 x1 x2, Encoding.Statement (.pxor x0 x1 x2) := fun _ _ _ => ⟨rfl, rfl, rfl⟩
theorem Encoding.pnot : ∀ x0 x1, Encoding.Statement (.pnot x0 x1) := fun _ _ => ⟨rfl, rfl, rfl⟩
theorem Encoding.pcnt : ∀ x0 x1, Encoding.Statement (.pcnt x0 x1) := fun _ _ => ⟨rfl, rfl, rfl⟩
theorem Encoding.vmov : ∀ x0 x1 x2 x3, Encoding.Statement (.vmov x0 x1 x2 x3) := fun _ _ _ _ => ⟨rfl, rfl, rfl⟩
theorem Encoding.vmovi : ∀ x0 x1, Encoding.Statement (.vmovi x0 x1) := fun _ _ => ⟨rfl, rfl, rfl⟩
theorem Encoding.vpopc : ∀ x0 x1 x2 x3, Encoding.Statement (.vpopc x0 x1 x2 x3) := fun _ _ _ _ => ⟨rfl, rfl, rfl⟩
theorem Encoding.vclz : ∀ x0 x1 x2 x3, Encoding.Statement (.vclz x0 x1 x2 x3) := fun _ _ _ _ => ⟨rfl, rfl, rfl⟩
theorem Encoding.vmulh : ∀ x0 x1 x2 x3 x4, Encoding.Statement (.vmulh x0 x1 x2 x3 x4) := fun _ _ _ _ _ => ⟨rfl, rfl, rfl⟩
theorem Encoding.mma : ∀ x0 x1 x2 x3 x4 x5 x6 x7, Encoding.Statement (.mma x0 x1 x2 x3 x4 x5 x6 x7) := fun _ _ _ _ _ _ _ _ => ⟨rfl, rfl, rfl⟩
theorem Encoding.mmaz : ∀ x0 x1 x2 x3 x4 x5 x6 x7, Encoding.Statement (.mmaz x0 x1 x2 x3 x4 x5 x6 x7) := fun _ _ _ _ _ _ _ _ => ⟨rfl, rfl, rfl⟩
theorem Encoding.mmt : ∀ x0 x1 x2 x3 x4 x5 x6, Encoding.Statement (.mmt x0 x1 x2 x3 x4 x5 x6) := fun _ _ _ _ _ _ _ => ⟨rfl, rfl, rfl⟩
theorem Encoding.twalk : ∀ x0 x1 x2 x3 x4 x5 x6 x7, Encoding.Statement (.twalk x0 x1 x2 x3 x4 x5 x6 x7) := fun _ _ _ _ _ _ _ _ => ⟨rfl, rfl, rfl⟩
theorem Encoding.twres : ∀ x0 x1 x2 x3 x4 x5 x6 x7, Encoding.Statement (.twres x0 x1 x2 x3 x4 x5 x6 x7) := fun _ _ _ _ _ _ _ _ => ⟨rfl, rfl, rfl⟩
theorem Encoding.mcommit : Encoding.Statement .mcommit := ⟨rfl, rfl, rfl⟩
theorem Encoding.mwait : ∀ x0, Encoding.Statement (.mwait x0) := fun _ => ⟨rfl, rfl, rfl⟩
theorem Encoding.aclr : ∀ x0 x1 x2, Encoding.Statement (.aclr x0 x1 x2) := fun _ _ _ => ⟨rfl, rfl, rfl⟩
theorem Encoding.rset : ∀ x0 x1 x2, Encoding.Statement (.rset x0 x1 x2) := fun _ _ _ => ⟨rfl, rfl, rfl⟩
theorem Encoding.rpush : ∀ x0 x1 x2, Encoding.Statement (.rpush x0 x1 x2) := fun _ _ _ => ⟨rfl, rfl, rfl⟩
theorem Encoding.rpop : ∀ x0 x1, Encoding.Statement (.rpop x0 x1) := fun _ _ => ⟨rfl, rfl, rfl⟩
theorem Encoding.shp : ∀ x0 x1 x2, Encoding.Statement (.shp x0 x1 x2) := fun _ _ _ => ⟨rfl, rfl, rfl⟩
theorem Encoding.tendRetire : ∀ x0, Encoding.Statement (.tendRetire x0) := fun _ => ⟨rfl, rfl, rfl⟩
theorem Encoding.hostQueueRead : ∀ x0, Encoding.Statement (.hostQueueRead x0) := fun _ => ⟨rfl, rfl, rfl⟩
theorem Encoding.spillRefill : ∀ x0, Encoding.Statement (.spillRefill x0) := fun _ => ⟨rfl, rfl, rfl⟩
theorem Encoding.taskPlace : ∀ x0, Encoding.Statement (.taskPlace x0) := fun _ => ⟨rfl, rfl, rfl⟩
theorem Encoding.granaryProgramPlace : ∀ x0, Encoding.Statement (.granaryProgramPlace x0) := fun _ => ⟨rfl, rfl, rfl⟩
theorem Encoding.taskLate : ∀ x0, Encoding.Statement (.taskLate x0) := fun _ => ⟨rfl, rfl, rfl⟩
theorem Encoding.uncorrectableError : ∀ x0, Encoding.Statement (.uncorrectableError x0) := fun _ => ⟨rfl, rfl, rfl⟩
theorem Encoding.llcSectorRetire : ∀ x0 x1 x2 x3, Encoding.Statement (.llcSectorRetire x0 x1 x2 x3) := fun _ _ _ _ => ⟨rfl, rfl, rfl⟩
theorem Encoding.domainStall : ∀ x0, Encoding.Statement (.domainStall x0) := fun _ => ⟨rfl, rfl, rfl⟩
theorem Encoding.writeBufferDrain : ∀ x0 x1, Encoding.Statement (.writeBufferDrain x0 x1) := fun _ _ => ⟨rfl, rfl, rfl⟩
theorem Encoding.homeAccess : ∀ x0, Encoding.Statement (.homeAccess x0) := fun _ => ⟨rfl, rfl, rfl⟩
theorem Encoding.loadDataReturn : ∀ x0 x1, Encoding.Statement (.loadDataReturn x0 x1) := fun _ _ => ⟨rfl, rfl, rfl⟩
theorem Encoding.fetchComplete : ∀ x0 x1, Encoding.Statement (.fetchComplete x0 x1) := fun _ _ => ⟨rfl, rfl, rfl⟩
theorem Encoding.translationWalk : ∀ x0 x1, Encoding.Statement (.translationWalk x0 x1) := fun _ _ => ⟨rfl, rfl, rfl⟩
theorem Encoding.tlbinvComplete : ∀ x0, Encoding.Statement (.tlbinvComplete x0) := fun _ => ⟨rfl, rfl, rfl⟩
theorem Encoding.waySample : ∀ x0, Encoding.Statement (.waySample x0) := fun _ => ⟨rfl, rfl, rfl⟩
theorem Encoding.wayChangeComplete : ∀ x0, Encoding.Statement (.wayChangeComplete x0) := fun _ => ⟨rfl, rfl, rfl⟩
theorem Encoding.vectorStart : ∀ x0, Encoding.Statement (.vectorStart x0) := fun _ => ⟨rfl, rfl, rfl⟩
theorem Encoding.vectorComplete : ∀ x0 x1, Encoding.Statement (.vectorComplete x0 x1) := fun _ _ => ⟨rfl, rfl, rfl⟩
theorem Encoding.millCommandStart : ∀ x0, Encoding.Statement (.millCommandStart x0) := fun _ => ⟨rfl, rfl, rfl⟩
theorem Encoding.millStep : ∀ x0, Encoding.Statement (.millStep x0) := fun _ => ⟨rfl, rfl, rfl⟩
theorem Encoding.millCommandRetire : ∀ x0, Encoding.Statement (.millCommandRetire x0) := fun _ => ⟨rfl, rfl, rfl⟩
theorem Encoding.rpopPerform : ∀ x0, Encoding.Statement (.rpopPerform x0) := fun _ => ⟨rfl, rfl, rfl⟩
theorem Encoding.aclrPerform : ∀ x0, Encoding.Statement (.aclrPerform x0) := fun _ => ⟨rfl, rfl, rfl⟩
theorem Encoding.walkWave : ∀ x0, Encoding.Statement (.walkWave x0) := fun _ => ⟨rfl, rfl, rfl⟩
theorem Encoding.copyRow : ∀ x0, Encoding.Statement (.copyRow x0) := fun _ => ⟨rfl, rfl, rfl⟩
theorem Encoding.copyComplete : ∀ x0, Encoding.Statement (.copyComplete x0) := fun _ => ⟨rfl, rfl, rfl⟩
theorem Encoding.superstepComplete : ∀ x0, Encoding.Statement (.superstepComplete x0) := fun _ => ⟨rfl, rfl, rfl⟩
theorem Encoding.xsendEmit : ∀ x0, Encoding.Statement (.xsendEmit x0) := fun _ => ⟨rfl, rfl, rfl⟩
theorem Encoding.xsendDelivery : ∀ x0, Encoding.Statement (.xsendDelivery x0) := fun _ => ⟨rfl, rfl, rfl⟩
theorem Encoding.gatherRequestArrival : ∀ x0, Encoding.Statement (.gatherRequestArrival x0) := fun _ => ⟨rfl, rfl, rfl⟩
theorem Encoding.gatherReplyEmit : ∀ x0, Encoding.Statement (.gatherReplyEmit x0) := fun _ => ⟨rfl, rfl, rfl⟩
theorem Encoding.gatherReplyDelivery : ∀ x0, Encoding.Statement (.gatherReplyDelivery x0) := fun _ => ⟨rfl, rfl, rfl⟩
theorem Encoding.doneArrival : ∀ x0, Encoding.Statement (.doneArrival x0) := fun _ => ⟨rfl, rfl, rfl⟩
theorem Encoding.collectiveStart : ∀ x0, Encoding.Statement (.collectiveStart x0) := fun _ => ⟨rfl, rfl, rfl⟩
theorem Encoding.collectiveComplete : ∀ x0, Encoding.Statement (.collectiveComplete x0) := fun _ => ⟨rfl, rfl, rfl⟩
theorem Encoding.packetInject : ∀ x0, Encoding.Statement (.packetInject x0) := fun _ => ⟨rfl, rfl, rfl⟩
theorem Encoding.packetHop : ∀ x0 x1 x2, Encoding.Statement (.packetHop x0 x1 x2) := fun _ _ _ => ⟨rfl, rfl, rfl⟩
theorem Encoding.packetSuspect : ∀ x0 x1 x2, Encoding.Statement (.packetSuspect x0 x1 x2) := fun _ _ _ => ⟨rfl, rfl, rfl⟩
theorem Encoding.lanternCapture : Encoding.Statement .lanternCapture := ⟨rfl, rfl, rfl⟩
theorem Encoding.bywayEject : Encoding.Statement .bywayEject := ⟨rfl, rfl, rfl⟩
theorem Encoding.packetDeliver : ∀ x0, Encoding.Statement (.packetDeliver x0) := fun _ => ⟨rfl, rfl, rfl⟩
theorem Encoding.ackArrival : ∀ x0, Encoding.Statement (.ackArrival x0) := fun _ => ⟨rfl, rfl, rfl⟩
theorem Encoding.linkRetry : ∀ x0 x1, Encoding.Statement (.linkRetry x0 x1) := fun _ _ => ⟨rfl, rfl, rfl⟩
theorem Encoding.routeTableRecompute : ∀ x0 x1, Encoding.Statement (.routeTableRecompute x0 x1) := fun _ _ => ⟨rfl, rfl, rfl⟩
theorem Encoding.routerFail : ∀ x0, Encoding.Statement (.routerFail x0) := fun _ => ⟨rfl, rfl, rfl⟩
theorem Encoding.trapEntry : ∀ x0 x1, Encoding.Statement (.trapEntry x0 x1) := fun _ _ => ⟨rfl, rfl, rfl⟩
theorem Encoding.interrupt : ∀ x0, Encoding.Statement (.interrupt x0) := fun _ => ⟨rfl, rfl, rfl⟩
theorem Encoding.curfewStop : ∀ x0, Encoding.Statement (.curfewStop x0) := fun _ => ⟨rfl, rfl, rfl⟩
theorem Encoding.curfewResume : ∀ x0, Encoding.Statement (.curfewResume x0) := fun _ => ⟨rfl, rfl, rfl⟩
theorem Encoding.domainWrite : ∀ x0 x1, Encoding.Statement (.domainWrite x0 x1) := fun _ _ => ⟨rfl, rfl, rfl⟩
theorem Encoding.phaseWrite : ∀ x0 x1, Encoding.Statement (.phaseWrite x0 x1) := fun _ _ => ⟨rfl, rfl, rfl⟩
theorem Encoding.waymaskWrite : ∀ x0 x1, Encoding.Statement (.waymaskWrite x0 x1) := fun _ _ => ⟨rfl, rfl, rfl⟩
theorem Encoding.waylimWrite : ∀ x0 x1, Encoding.Statement (.waylimWrite x0 x1) := fun _ _ => ⟨rfl, rfl, rfl⟩
theorem Encoding.lsWrite : ∀ x0 x1 x2, Encoding.Statement (.lsWrite x0 x1 x2) := fun _ _ _ => ⟨rfl, rfl, rfl⟩
theorem Encoding.mstatWrite : ∀ x0 x1, Encoding.Statement (.mstatWrite x0 x1) := fun _ _ => ⟨rfl, rfl, rfl⟩
theorem Encoding.copyRegisterWrite : ∀ x0 x1 x2 x3, Encoding.Statement (.copyRegisterWrite x0 x1 x2 x3) := fun _ _ _ _ => ⟨rfl, rfl, rfl⟩
theorem Encoding.netctlWrite : ∀ x0 x1, Encoding.Statement (.netctlWrite x0 x1) := fun _ _ => ⟨rfl, rfl, rfl⟩
theorem Encoding.pctlWrite : ∀ x0 x1, Encoding.Statement (.pctlWrite x0 x1) := fun _ _ => ⟨rfl, rfl, rfl⟩
theorem Encoding.registerWrite : ∀ x0 x1 x2, Encoding.Statement (.registerWrite x0 x1 x2) := fun _ _ _ => ⟨rfl, rfl, rfl⟩
theorem Encoding.doorbell : ∀ x0, Encoding.Statement (.doorbell x0) := fun _ => ⟨rfl, rfl, rfl⟩
theorem Encoding.attestationReport : Encoding.Statement .attestationReport := ⟨rfl, rfl, rfl⟩
theorem Encoding.deviceReset : ∀ x0, Encoding.Statement (.deviceReset x0) := fun _ => ⟨rfl, rfl, rfl⟩
theorem Encoding.droopEvent : ∀ x0, Encoding.Statement (.droopEvent x0) := fun _ => ⟨rfl, rfl, rfl⟩
theorem Encoding.powerThrottle : ∀ x0, Encoding.Statement (.powerThrottle x0) := fun _ => ⟨rfl, rfl, rfl⟩
theorem Encoding.senseInterval : ∀ x0 x1 x2, Encoding.Statement (.senseInterval x0 x1 x2) := fun _ _ _ => ⟨rfl, rfl, rfl⟩
theorem Encoding.hostBarAccess : ∀ x0 x1 x2 x3 x4, Encoding.Statement (.hostBarAccess x0 x1 x2 x3 x4) := fun _ _ _ _ _ => ⟨rfl, rfl, rfl⟩
theorem Encoding.hostAtomicop : ∀ x0 x1 x2 x3 x4, Encoding.Statement (.hostAtomicop x0 x1 x2 x3 x4) := fun _ _ _ _ _ => ⟨rfl, rfl, rfl⟩
theorem Encoding.pcieCompletion : ∀ x0 x1 x2, Encoding.Statement (.pcieCompletion x0 x1 x2) := fun _ _ _ => ⟨rfl, rfl, rfl⟩
theorem Encoding.pcieCompletionTimeout : ∀ x0, Encoding.Statement (.pcieCompletionTimeout x0) := fun _ => ⟨rfl, rfl, rfl⟩
theorem Encoding.peerMessage : ∀ x0 x1, Encoding.Statement (.peerMessage x0 x1) := fun _ _ => ⟨rfl, rfl, rfl⟩
theorem Encoding.peerRetransmit : ∀ x0, Encoding.Statement (.peerRetransmit x0) := fun _ => ⟨rfl, rfl, rfl⟩
theorem Encoding.portLinkChange : ∀ x0 x1, Encoding.Statement (.portLinkChange x0 x1) := fun _ _ => ⟨rfl, rfl, rfl⟩
theorem Encoding.dbgctlFrz : Encoding.Statement .dbgctlFrz := ⟨rfl, rfl, rfl⟩
theorem Encoding.bypass : Encoding.Statement .bypass := ⟨rfl, rfl, rfl⟩
theorem Encoding.idcode : Encoding.Statement .idcode := ⟨rfl, rfl, rfl⟩
theorem Encoding.samplePreload : Encoding.Statement .samplePreload := ⟨rfl, rfl, rfl⟩
theorem Encoding.extest : Encoding.Statement .extest := ⟨rfl, rfl, rfl⟩
theorem Encoding.freeze : Encoding.Statement .freeze := ⟨rfl, rfl, rfl⟩
theorem Encoding.scanout : Encoding.Statement .scanout := ⟨rfl, rfl, rfl⟩
theorem Encoding.saveEngineFinish : ∀ x0, Encoding.Statement (.saveEngineFinish x0) := fun _ => ⟨rfl, rfl, rfl⟩
theorem Encoding.supplyRecovery : ∀ x0, Encoding.Statement (.supplyRecovery x0) := fun _ => ⟨rfl, rfl, rfl⟩
theorem Encoding.powerWithinLimit : ∀ x0, Encoding.Statement (.powerWithinLimit x0) := fun _ => ⟨rfl, rfl, rfl⟩
theorem Encoding.hostLinkChange : ∀ x0 x1 x2, Encoding.Statement (.hostLinkChange x0 x1 x2) := fun _ _ _ => ⟨rfl, rfl, rfl⟩

end Sys2Proof.Laws
end

