-- ==== Sys2Proof/Tests/Slice0.lean ====
section
/-! SUPPORT. Tests: words written out from the encoding tables of 03_encoding (R49 to R55), a malformed term for every check of
WellFormed, single steps on small states with results worked out by hand from the rules, and for each statement of
Certificates/Slice0/Obligations.lean a state and operands that meet its hypotheses. -/

open Sys2Proof Sys2Proof.Machine

set_option Elab.async false

namespace Sys2Proof.Tests

/-! ### Decoding -/

/-- Every word of a list decodes to the instruction beside it, which is well formed. -/
def reads (f : Nat → Except DecodeError Instr) (l : List (Nat × Instr)) : Bool :=
  l.all fun e =>
    match f e.1 with
    | .ok i => i == e.2 && wfError i == none
    | .error _ => false

/-- The result is an error of one kind. -/
def refuses {α : Type} (r : Except DecodeError α) (e : DecodeError) : Bool :=
  match r with
  | .ok _ => false
  | .error x => x == e

/-- The result is one bundle. -/
def bundles (r : Except DecodeError Bundle) (b : Bundle) : Bool :=
  match r with
  | .ok x => x == b
  | .error _ => false

/-- nop to done, in the order of the opcode table. -/
theorem test_decodeC0 : reads decodeC
    [(0x00000000, .nop), (0x01003FFD, .br 0x3FFD), (0x02003FFD, .call 0x3FFD), (0x03018000, .jr 6), (0x04018000, .callr 6),
      (0x05000000, .ret), (0x06333FFD, .beq 6 12 0x3FFD), (0x07333FFD, .bne 6 12 0x3FFD), (0x08333FFD, .blt 6 12 0x3FFD),
      (0x09333FFD, .bge 6 12 0x3FFD), (0x0A333FFD, .bltn 6 12 0x3FFD), (0x0B333FFD, .bgen 6 12 0x3FFD),
      (0x0C300040, .loop 6 64), (0x0D348040, .rep 6 9 64), (0x0E00BEEF, .trap 0xBEEF), (0x0F000000, .eret),
      (0x10A31ABC, .start 10 6 0x1ABC), (0x11814000, .join 0x205), (0x12000000, .hend), (0x13000000, .yield),
      (0x14019680, .done 6 45)] = true := by decide +kernel
/-- tend to ldq, in the order of the opcode table. -/
theorem test_decodeC1 : reads decodeC
    [(0x15018000, .tend 6), (0x16000000, .wfi), (0x17980033, .mfs 19 0x33), (0x18980033, .mts 19 0x33),
      (0x191996C0, .tlbinv 3 6 45 .die), (0x1A199800, .save 3 6 12), (0x1A199801, .saveRes 3 6 12), (0x1B199800, .rest 3 6 12),
      (0x1C199800, .curf 3 6 12), (0x1D199800, .spawn 3 6 12), (0x1E199800, .gang 3 6 12), (0x1F180000, .tlate 3),
      (0x1F198001, .tlateSet 3 6), (0x2019A005, .ldb 3 6 0x2005), (0x2119A005, .ldbn 3 6 0x2005),
      (0x2219A005, .ldh 3 6 0x2005), (0x2319A005, .ldhn 3 6 0x2005), (0x2419A005, .ldw 3 6 0x2005),
      (0x2519A005, .ldwn 3 6 0x2005), (0x2619A005, .ldd 3 6 0x2005), (0x2719A005, .ldq 3 6 0x2005)] = true := by decide +kernel
/-- ldv to frd, in the order of the opcode table. -/
theorem test_decodeC2 : reads decodeC
    [(0x2819A005, .ldv 3 6 0x2005), (0x2919A005, .stb 3 6 0x2005), (0x2A19A005, .sth 3 6 0x2005),
      (0x2B19A005, .stw 3 6 0x2005), (0x2C19A005, .std 3 6 0x2005), (0x2D19A005, .stq 3 6 0x2005),
      (0x2E19A005, .stv 3 6 0x2005), (0x2F199680, .fetch 3 6 45), (0x3019A005, .rldw 3 6 0x2005),
      (0x3119A005, .rldd 3 6 0x2005), (0x3219A005, .rstw 3 6 0x2005), (0x3319A005, .rstd 3 6 0x2005),
      (0x341999D6, .aadd 3 6 12 .ar .dev .n32), (0x351999D6, .aand 3 6 12 .ar .dev .n32),
      (0x361999D3, .aor 3 6 12 .ar .dev .i64), (0x371999D6, .axor 3 6 12 .ar .dev .n32),
      (0x381999D6, .amin 3 6 12 .ar .dev .n32), (0x391999D6, .amax 3 6 12 .ar .dev .n32),
      (0x3A1999D6, .aswp 3 6 12 .ar .dev .n32), (0x3B1999D6, .acas 3 6 12 .ar .dev .n32), (0x3C198000, .frd 3 6)] = true := by decide +kernel
/-- fwr to coll_rs, in the order of the opcode table. -/
theorem test_decodeC3 : reads decodeC
    [(0x3D198001, .fwr 3 6 true), (0x3E000150, .fence .rel .dev), (0x3F000013, .qfence 0x13), (0x40019850, .cwb 6 12 .dev),
      (0x41019850, .cinv 6 12 .dev), (0x42019850, .cwbi 6 12 .dev), (0x43199850, .cpin 3 6 12), (0x44199850, .cunpin 3 6 12),
      (0x45019850, .pref 6 12 .dev), (0x46180000, .cpgo 3), (0x47001680, .sacq 45), (0x480196D0, .srel 6 45 .dev),
      (0x49181681, .sget 3 45 true), (0x4A019680, .bell 6 45), (0x4B001680, .bwait 45), (0x4C000000, .sstep),
      (0x4D199800, .xsend 3 6 12), (0x4E199800, .greq 3 6 12), (0x4F019800, .collBar 6 12), (0x4F019840, .collAg 6 12),
      (0x4F0198AA, .collRs 6 12 2 .bf16)] = true := by decide +kernel
/-- coll_a2a to stqx, in the order of the opcode table. -/
theorem test_decodeC4 : reads decodeC
    [(0x4F0198C0, .collA2a 6 12), (0x50199800, .glset 3 6 12), (0x51018101, .glrun 6 0x101), (0x52018005, .glfoot 6 5),
      (0x52018105, .glfootV 6 5), (0x53000000, .glnext), (0x54180000, .glend 3), (0x601998D5, .ldbx 3 6 12 .acq .dev 5),
      (0x611998D5, .ldbnx 3 6 12 .acq .dev 5), (0x621998D5, .ldhx 3 6 12 .acq .dev 5), (0x631998D5, .ldhnx 3 6 12 .acq .dev 5),
      (0x641998D5, .ldwx 3 6 12 .acq .dev 5), (0x651998D5, .ldwnx 3 6 12 .acq .dev 5), (0x661998D5, .lddx 3 6 12 .acq .dev 5),
      (0x671998D5, .ldqx 3 6 12 .acq .dev 5), (0x681998D5, .ldvx 3 6 12 .acq .dev 5), (0x69199955, .stbx 3 6 12 .rel .dev 5),
      (0x6A199955, .sthx 3 6 12 .rel .dev 5), (0x6B199955, .stwx 3 6 12 .rel .dev 5), (0x6C199955, .stdx 3 6 12 .rel .dev 5),
      (0x6D199955, .stqx 3 6 12 .rel .dev 5)] = true := by decide +kernel
/-- stvx to stvx, in the order of the opcode table. -/
theorem test_decodeC5 : reads decodeC
    [(0x6E199955, .stvx 3 6 12 .rel .dev 5)] = true := by decide +kernel
/-- nop_a to sel, in the order of the opcode table. -/
theorem test_decodeA0 : reads decodeA
    [(0x00000000, .nopA), (0x023330C0, .add 3 6 12 .i64), (0x043330C0, .sub 3 6 12 .i64), (0x063330C0, .and 3 6 12 .i64),
      (0x083330C0, .or 3 6 12 .i64), (0x0A3330C0, .xor 3 6 12 .i64), (0x0C333180, .andn 3 6 12 .n32),
      (0x0E3330C0, .shl 3 6 12 .i64), (0x103330C0, .shr 3 6 12 .i64), (0x123330C0, .sra 3 6 12 .i64),
      (0x143330C0, .mul 3 6 12 .i64), (0x163330C0, .mulh 3 6 12 .i64), (0x183330C0, .div 3 6 12 .i64),
      (0x1A3330C0, .rem 3 6 12 .i64), (0x1C3330C0, .min 3 6 12 .i64), (0x1E3330C0, .max 3 6 12 .i64),
      (0x203330C0, .seq 3 6 12 .i64), (0x223330C0, .sne 3 6 12 .i64), (0x243330C0, .slt 3 6 12 .i64),
      (0x263330C0, .sle 3 6 12 .i64), (0x283332C0, .sel 3 6 12 22)] = true := by decide +kernel
/-- popc to muli, in the order of the opcode table. -/
theorem test_decodeA1 : reads decodeA
    [(0x2A3300C0, .popc 3 6 .i64), (0x2C3300C0, .clz 3 6 .i64), (0x2E3300C0, .ctz 3 6 .i64), (0x30330140, .ext 3 6 .n16),
      (0x323330C0, .rol 3 6 12 .i64), (0x343330C0, .ror 3 6 12 .i64), (0x363300C0, .bswap 3 6 .i64),
      (0x38332378, .bext 3 6 17 47), (0x3A332378, .bins 3 6 17 47), (0x3C3300C0, .abs 3 6 .i64), (0x40304005, .movi 3 0x4005),
      (0x42334005, .lui 3 6 0x4005), (0x44334005, .addi 3 6 0x4005), (0x46334005, .andi 3 6 0x4005),
      (0x48334005, .ori 3 6 0x4005), (0x4A334005, .xori 3 6 0x4005), (0x4C33002B, .shli 3 6 0x2B),
      (0x4E33002B, .shri 3 6 0x2B), (0x5033002B, .srai 3 6 0x2B), (0x5233002B, .rori 3 6 0x2B), (0x54334005, .muli 3 6 0x4005)] = true := by decide +kernel
/-- slti to vceq, in the order of the opcode table. -/
theorem test_decodeA2 : reads decodeA
    [(0x56334005, .slti 3 6 0x4005), (0x58334005, .sltin 3 6 0x4005), (0x5A334005, .seqi 3 6 0x4005),
      (0x60333288, .vadd 3 6 12 5 .i16 .dflt), (0x62333288, .vsub 3 6 12 5 .i16 .dflt),
      (0x64333288, .vmul 3 6 12 5 .i16 .dflt), (0x663332DA, .vdiv 3 6 12 5 .f16 .rtz), (0x68333288, .vmin 3 6 12 5 .i16),
      (0x6A333288, .vmax 3 6 12 5 .i16), (0x6C330288, .vabs 3 6 5 .i16), (0x6E330288, .vneg 3 6 5 .i16),
      (0x70333288, .vfma 3 6 12 5 .i16 .dflt), (0x72333288, .vfms 3 6 12 5 .i16 .dflt), (0x743302DA, .vsqrt 3 6 5 .f16 .rtz),
      (0x76333288, .vand 3 6 12 5 .i16), (0x78333288, .vor 3 6 12 5 .i16), (0x7A333288, .vxor 3 6 12 5 .i16),
      (0x7C333288, .vshl 3 6 12 5 .i16), (0x7E333288, .vshr 3 6 12 5 .i16), (0x8033268A, .vcvt 3 6 .f32 5 .i16 .rtz),
      (0x82333288, .vceq 3 6 12 5 .i16)] = true := by decide +kernel
/-- vcne to pnot, in the order of the opcode table. -/
theorem test_decodeA3 : reads decodeA
    [(0x84333288, .vcne 3 6 12 5 .i16), (0x86333288, .vclt 3 6 12 5 .i16), (0x88333288, .vcle 3 6 12 5 .i16),
      (0x8A333288, .vsel 3 6 12 5 .i16), (0x8C330288, .vrsum 3 6 5 .i16 .dflt), (0x8E330288, .vrmin 3 6 5 .i16),
      (0x90330288, .vrmax 3 6 5 .i16), (0x92333288, .vperm 3 6 12 5 .i16), (0x94330288, .vbcast 3 6 5 .i16),
      (0x96333288, .vslide 3 6 12 5 .i16), (0x98333288, .vgat 3 6 12 5 .i16), (0x9A333288, .vsct 3 6 12 5 .i16),
      (0x9C333008, .vextg 3 6 12 .i16), (0x9E333008, .vinsg 3 6 12 .i16), (0xA03302C0, .aget 3 6 11),
      (0xA23302C0, .aput 3 6 11), (0xA5D4D181, .sisect 29 9 20 .n32 true), (0xA6331400, .pand 3 6 5), (0xA8331400, .por 3 6 5),
      (0xAA331400, .pxor 3 6 5), (0xAC330000, .pnot 3 6)] = true := by decide +kernel
/-- pcnt to shp, in the order of the opcode table. -/
theorem test_decodeA4 : reads decodeA
    [(0xAE330000, .pcnt 3 6), (0xB0330288, .vmov 3 6 5 .i16), (0xB2304005, .vmovi 3 0x4005), (0xB4330288, .vpopc 3 6 5 .i16),
      (0xB6330288, .vclz 3 6 5 .i16), (0xB8333288, .vmulh 3 6 12 5 .i16), (0xC092333A, .mma 9 4 12 6 true true true .rtz),
      (0xC292333A, .mmaz 9 4 12 6 true true true .rtz), (0xC4923352, .mmt 9 4 12 6 true true .rtz),
      (0xC6923372, .twalk 9 4 12 6 true true true .rtz), (0xC8923372, .twres 9 4 12 6 true true true .rtz),
      (0xCA000000, .mcommit), (0xCC003000, .mwait 12), (0xCE923000, .aclr 9 4 12), (0xD0623000, .rset 6 4 12),
      (0xD2323000, .rpush 3 4 12), (0xD4023000, .rpop 4 12), (0xD6033300, .shp 6 12 6)] = true := by decide +kernel

/-- The instructions of the test access port (R449), and codes that select none. -/
theorem test_decodeTap :
    [0xFF, 0x01, 0x02, 0x03, 0x20, 0x21].map decodeTap =
      [some .bypass, some .idcode, some .samplePreload, some .extest, some .freeze, some .scanout] := by decide

/-- R54, R55: opcodes with a dash; R50, R56: bits that a form leaves unused. -/
theorem test_decodeRefuses :
    (refuses (decodeC 0x55000000) .unassigned && refuses (decodeC 0x7F000000) .unassigned && refuses (decodeA 0xFE000000) .unassigned &&
      refuses (decodeC 0x00000001) .reservedField && refuses (decodeC 0x0C008040) .reservedField &&
      refuses (decodeA 0x00000001) .reservedField && refuses (decodeC 0x1A199802) .reservedField) = true := by decide +kernel

/-- R46: both slots name g4; g0 is no destination; a lone bundle has word 1 zero (R44). -/
theorem test_bundles :
    (bundles (decodeBundle 0x2C198000 0x44320001) ⟨.std 3 6 0, some (.addi 3 4 1)⟩ &&
      refuses (decodeBundle 0x26218000 0x44420001) .sameDestination &&
      bundles (decodeBundle 0x26018000 0x44020001) ⟨.ldd 0 6 0, some (.addi 0 4 1)⟩ &&
      bundles (decodeBundle 0xA6218000 0x00000000) ⟨.ldd 4 6 0, none⟩ && refuses (decodeBundle 0xA6218000 0x44420001) .loneWord) = true := by
  decide +kernel

/-- A malformed instruction for every check of WellFormed, at the first value out of range. -/
theorem test_wellFormedRefuses :
    [.vadd 16 0 0 0 .i8 .dflt, .pand 8 0 0, .aget 0 16 0, .rset 0 16 0, .add 1 2 3 .i8, .cwb 1 2 .res7, .fence .pl .dev,
      .vdiv 0 1 2 0 .f32 .res5, .loop 1 65, .loop 1 0, .start 11 1 0, .start 0 1 0, .mfs 1 0x04, .sacq 64, .qfence 0, .collRs 1 2 3 .i32,
      .glrun 1 0, .glfoot 0 0, .glfoot 31 1, .bext 1 2 18 47, .ldbx 1 2 3 .pl .ctx 7,
      .sisect 3 9 10 .n32 false, .mma 0 4 4 0 false false true .rne, .mma 0 4 5 0 true false false .rne, .aclr 0 16 0,
      .vadd 0 1 2 0 .i8 .rne, .ldbx 1 2 3 .rel .dev 0, .srel 1 2 .clu, .vabs 1 2 0 .n8].map (fun i : Instr => wfError i) =
    [some .vectorClass, some .predicateClass, some .tileClass, some .ringClass, some .typeCode, some .scopeCode, some .orderingCode,
      some .roundingCode, some .loopLength, some .loopLength, some .helperNumber, some .helperNumber, some .systemRegister,
      some .semaphoreNumber, some .queueMask, some .combineCode, some .bodyLength, some .footRange, some .footRange, some .bitField,
      some .indexShift, some .registerSet, some .ringPair, some .holdB, some .tileCount, some .roundingCode,
      some .orderingCode, some .scopeCode, some .typeCode] := by decide +kernel

/-- The last value in range of the same checks. -/
theorem test_wellFormedAllows :
    ([.vadd 15 0 0 0 .i8 .dflt, .pand 7 0 0, .aget 0 15 0, .rset 0 15 0, .loop 1 64, .loop 1 1, .start 10 1 0, .mfs 1 0x61, .sacq 63,
      .glfoot 30 1, .bext 1 2 17 47, .bext 1 2 0 0, .ldbx 1 2 3 .pl .ctx 6, .twalk 0 0 30 0 false false false .rne, .sisect 3 9 11 .n32 false,
      .aclr 0 15 0].all fun i : Instr => wfError i == none) = true := by decide +kernel

/-! ### Witnesses: states and operands that meet the hypotheses of the statements, clause by clause, at the ends of their ranges -/

/-- A core with one context; its other contexts are free. -/
def one (x : Ctx) (y : Core := {}) : State :=
  { cur := { pc := x.pc, next := x.pc + 1 }, cores := [(0, { y with ctxs := [(0, x)] })] }
/-- Registers by number. -/
def regs (l : List (Nat × Nat)) : Tab Word := l.map fun e => (e.1, BitVec.ofNat 64 e.2)
/-- A core whose traps lead into a handler (TRAPVEC.EN, R388). -/
def traps : Core := { trapvec := 0x20000 }
/-- A ready context with registers. -/
def ready (l : List (Nat × Nat)) : Ctx := { run := .ready, g := regs l }
/-- The same at supervisor privilege. -/
def super (l : List (Nat × Nat)) : Ctx := { run := .ready, g := regs l, sup := true }

/-- An instruction answers a next state of which a check holds. -/
def after (i : Instr) (s : State) (p : State → Bool) : Bool :=
  match exec i s with
  | .next t => p t
  | _ => false

theorem get_all {α : Type} (t : Tab α) (d : α) (p : α → Prop) (hd : p d) (h : ∀ e ∈ t, p e.2) (j : Nat) : p (Tab.get t d j) := by
  induction t with
  | nil => exact hd
  | cons e t ih =>
    have i := ih fun x hx => h x (List.mem_cons_of_mem _ hx)
    simp only [Tab.get, Tab.find] at i ⊢
    split
    · next heq =>
      split at heq
      · exact Option.some.inj heq ▸ h e List.mem_cons_self
      · rw [heq] at i; exact i
    · exact hd

/-- Where the tables know of no failure, every tile reaches every other (R356); so it is where the network is as at reset. -/
theorem reachable (s : State) (hr : s.net.failedRouters = []) (hl : s.net.knownLinks = []) (hk : s.net.knownRouters = []) : Reachable s := by
  intro a b; simp [unreachable, hr, hl, hk]
theorem reachable_net (s : State) (h : s.net = {}) : Reachable s := reachable s (by rw [h]) (by rw [h]) (by rw [h])

theorem get_all_but {α : Type} (t : Tab α) (d : α) (p : α → Prop) (k : Nat) (hd : p d) (h : ∀ e ∈ t, e.1 = k ∨ p e.2) (j : Nat)
    (hj : j ≠ k) : p (Tab.get t d j) := by
  induction t with
  | nil => exact hd
  | cons e t ih =>
    have i := ih fun x hx => h x (List.mem_cons_of_mem _ hx)
    simp only [Tab.get, Tab.find] at i ⊢
    split
    · next heq =>
      split at heq
      · next he => exact Option.some.inj heq ▸ (h e List.mem_cons_self).resolve_left fun q => hj (he ▸ q)
      · rw [heq] at i; exact i
    · exact hd

/-- The context is not blocked, nor halted in that state. -/
def unblocked (x : Ctx) : Bool :=
  match x.run with
  | .blocked _ => false
  | .halted (.blocked _) => false
  | _ => true

theorem unblocked_all (s : State) (h : ∀ e ∈ s.cores, ∀ f ∈ e.2.ctxs, unblocked f.2 = true) (k c : Nat) : unblocked (s.ctx k c) = true :=
  get_all s.cores {} (fun y => unblocked (y.ctxs.get {} c) = true) rfl (fun e he => get_all e.2.ctxs {} (fun x => unblocked x = true) rfl (h e he) c) k

theorem noneBlocked (s : State) (h : ∀ e ∈ s.cores, ∀ f ∈ e.2.ctxs, unblocked f.2 = true) (k : Nat) : NoneBlocked s k := by
  intro c w hw
  have := unblocked_all s h k c
  simp [unblocked, hw] at this

theorem noneHeld (s : State) (h : ∀ e ∈ s.cores, ∀ f ∈ e.2.ctxs, unblocked f.2 = true) (k c : Nat) (w : Wait) :
    (s.ctx k c).run ≠ .blocked w ∧ (s.ctx k c).run ≠ .halted (.blocked w) := by
  have := unblocked_all s h k c
  constructor <;> intro hw <;> simp [unblocked, hw] at this

/-! #### Encoding and steps -/

theorem witness_DecodeOfEncode :
    (WellFormed (.ldbx 31 30 29 .acq .sys 6) ∧ (Instr.ldbx 31 30 29 .acq .sys 6).place = .c) ∧
      (WellFormed (.bext 31 30 63 1) ∧ (Instr.bext 31 30 63 1).place = .a) ∧ WellFormed .scanout ∧ Instr.scanout.place = .tap := by
  decide +kernel

theorem witness_EncodeOfDecode :
    (bundles (decodeBundle 0x80000000 0) ⟨.nop, none⟩ && bundles (decodeBundle 0x2E7FFFFF 0x45FFFFFF) ⟨.stv 15 31 0x3FFF, some (.addi 31 31 0x7FFF)⟩) = true := by
  decide +kernel

/-- A machine whose core 0, whose g1 is no bundle address, issues the bundle of two words at the last bundle address. -/
def issues (w0 w1 : Nat) : State :=
  { one { run := .ready, pc := 8191, g := regs [(1, 8192)] } traps with
    mem := memWrite (memWrite [] (istoreBase 0 + 65528) (toBytes 4 w0)) (istoreBase 0 + 65532) (toBytes 4 w1), agenda := [.issue 0] }

theorem alone_issues (w0 w1 : Nat) : Alone (issues w0 w1) 0 0 := by
  refine ⟨by decide, by decide, rfl, rfl, rfl, rfl, rfl, rfl, rfl, fun d hd => ?_, rfl, rfl, rfl, rfl, rfl⟩
  simp [State.ctx, State.core, issues, one, Tab.get, Tab.find, Ne.symm hd]

/-- What the context finds when that bundle issues, and what it does then: the C slot, and the A slot after it. -/
def found (w0 w1 : Nat) : State :=
  let s := issues w0 w1
  { s with agenda := [], cur := { pc := 8191, next := 8191 + 1, w0 := w0, w1 := w1, latch := some (s.ctx 0 0), glAt := some (s.core 0).gl } }
theorem found_issues (w0 w1 : Nat) : IssuesAt { issues w0 w1 with agenda := [] } 0 0 w0 w1 (found w0 w1) :=
  ⟨rfl, rfl, rfl, ⟨fun _ _ => rfl, rfl, fun _ _ => rfl⟩, fun _ => ⟨_, rfl⟩, rfl⟩
def runsBoth (i a : Instr) (u : State) (p : State → Bool) : Bool :=
  after i u fun t => t.cur.out == .go && after a (t.updCur fun x => { x with slotA := true }) p

theorem witness_StepRunsDecoded :
    (∀ w ∈ [(0x80000000, 0), (0x55000000, 0), (0x0F000000, 0), (0x03004000, 0), (0, 0x023214C0), (0, 0xC0F10401), (0x17300032, 0x023214C0)],
      Alone (issues w.1 w.2) 0 0 ∧ (issues w.1 w.2).agenda = .issue 0 :: [] ∧ Fetches (issues w.1 w.2) 0 0 w.1 w.2 ∧
        IssuesAt { issues w.1 w.2 with agenda := [] } 0 0 w.1 w.2 (found w.1 w.2)) ∧
    (decodeFor 0 (0x80000000, 0) = some ⟨.nop, none⟩ ∧ after .nop (found 0x80000000 0) (fun t => t.cur.out != .stall) = true) ∧
    decodeFor 0 (0x55000000, 0) = none ∧
    (decodeFor 0 (0x0F000000, 0) = some ⟨.eret, some .nopA⟩ ∧ privForm .eret = true ∧ (found 0x0F000000 0).me.sup = false) ∧
    (decodeFor 0 (0x03004000, 0) = some ⟨.jr 1, some .nopA⟩ ∧ privForm (.jr 1) = false ∧ actsLast (.jr 1) = false ∧
      after (.jr 1) (found 0x03004000 0) (fun t => t.cur.out == .trap) = true) ∧
    (decodeFor 0 (0, 0x023214C0) = some ⟨.nop, some (.add 3 4 5 .i64)⟩ ∧ privForm .nop = false ∧ actsLast .nop = false ∧
      runsBoth .nop (.add 3 4 5 .i64) (found 0 0x023214C0) (fun t => t.cur.out == .go) = true) ∧
    (let mma := Instr.mma 15 2 1 0 false false false .rne
     decodeFor 0 (0, 0xC0F10401) = some ⟨.nop, some mma⟩ ∧
       runsBoth .nop mma (found 0 0xC0F10401) (fun t => t.cur.out == .trap && t.cur.fault == some (.ringForm, 0)) = true) ∧
    decodeFor 0 (0x17300032, 0x023214C0) = some ⟨.mfs 6 0x032, some (.add 3 4 5 .i64)⟩ ∧
    (let s := one (ready []) { ops := [(63, { instr := .ldd 31 1 0 })], vq := [{ instr := .vextg 30 1 2 .i64 }, { instr := .vadd 6 7 8 0 .i8 .dflt }] }
     s.me.ls.act = false ∧ NoBody s ∧ (∃ o ∈ s.my.ops, o.2.ctx = 0 ∧ o.2.instr = .ldd 31 1 0) ∧
       (∃ m ∈ s.my.vq, m.ctx = 0 ∧ m.instr = .vextg 30 1 2 .i64 ∧ m.flt = none) ∧
       ∃ m ∈ s.my.vq, m.ctx = 0 ∧ m.instr = .vadd 6 7 8 0 .i8 .dflt ∧ m.flt = none) ∧
    (let s : State := { one (ready []) with agenda := .event .freeze :: [] }
     s.agenda = .event .freeze :: []) ∧
    (let s : State := { io := { tap := { pend := some 0x21 } } }
     s.agenda = [] ∧ s.io.tap.pend = some 0x21 ∧ decodeTap 0x21 = some .scanout) := by
  refine ⟨fun w hw => ⟨alone_issues _ _, rfl, ?_, found_issues _ _⟩, by unfold NoBody; decide +kernel⟩
  revert w
  unfold Fetches
  decide +kernel

theorem witness_StepKeepsMemoryForm :
    let s : State := { one (ready []) with mem := [(0x10000000000, 7)], agenda := [.event (.hostLinkChange true 5 16)] }
    SoundMem s ∧ ∃ t, step s = .next t := ⟨by unfold SoundMem; decide +kernel, _, rfl⟩

/-! #### Integer instructions and control -/

/-- Lengths at both ends of a field, in IntegerImmediate. -/
theorem witness_IntegerImmediate :
    ∀ e ∈ [((63 : BitVec 6), (1 : BitVec 6)), (0, 63), (1, 63), (0, 0)], e.1.toNat + (if e.2 = 0 then 64 else e.2.toNat) ≤ 64 := by simp

/-- The encodings on both sides of the largest finite value, of the infinity and of the default NaN. -/
theorem witness_FloatRounding :
    (∀ t ∈ [Ty.e4m3, .e5m2, .bf16, .f16, .f32, .f64],
      let f := t.fmt
      let top := (2 ^ f.eb - 1) * 2 ^ f.mb
      t ∈ [Ty.e4m3, .e5m2, .bf16, .f16, .f32, .f64] ∧ f.largest < 2 ^ (f.eb + f.mb) ∧ 2 ^ f.mb - 1 < 2 ^ f.mb ∧
        if t = .e4m3 then 0x7F < 2 ^ (f.eb + f.mb)
        else f.largest < top ∧ top < 2 ^ (f.eb + f.mb) ∧ top < top + 1 ∧ top + 1 < 2 ^ (f.eb + f.mb) ∧ top < 2 ^ (f.eb + f.mb) - 1) ∧
    (∀ w ∈ [8, 16, 32, 64], w ∈ [8, 16, 32, 64]) ∧
    (FVal.inf true).isNan = false ∧ (FVal.fin true 0 0).isNan = false ∧ Ty.f64.fmt.decode (Ty.f64.fmt.largest + 1) = .inf false := by decide +kernel

theorem witness_types : ∀ t ∈ [Ty.i32, .i64, .n32, .n64], t = .i32 ∨ t = .i64 ∨ t = .n32 ∨ t = .n64 := by decide

/-- A context in the last bundle of the Gleaner body 8191 to 0, and the address after it. -/
def inBody : State :=
  let g : Gleaner := { own := 0, run := true, start := 8191, last := 0 }
  let s := one (super [(1, 5)]) { trapvec := 0x20000, gl := g }
  { s with cur := { s.cur with glAt := some g } }

theorem witness_Branches :
    NoBody (one (ready [])) ∧ ((one (ready [(1, 8191)])).srcG 1).toNat < 8192 ∧
      (8192 ≤ ((one (ready [(1, 8192)]) traps).srcG 1).toNat ∧ MayEnter (one (ready [(1, 8192)]) traps) 0 0) ∧
      (let s := inBody
       let g := s.my.gl
       MayEnter s 0 0 ∧ s.cur.glAt = some g ∧ g.run = true ∧ g.suspended = false ∧ g.own = s.cur.ctx ∧
         (s.cur.pc - g.start).toNat ≤ (g.last - g.start).toNat ∧ ((g.last - g.start).toNat < ((1 : PC) - g.start).toNat) ∧
         ((s.srcG 1 == s.srcG 1) = true ∧ (s.srcG 1 != s.srcG 0) = true ∧ (s.srcG 0).slt (s.srcG 1) = true ∧ (s.srcG 0).ult (s.srcG 1) = true)) := by
  unfold NoBody MayEnter; decide +kernel

/-- A context at a call depth whose g31 holds a value, and whose shadow-stack entry 0 holds 5 (R106). -/
def calls (sdep g31 : Nat) : State :=
  { one { ready [(1, 8191), (2, 8192), (31, g31)] with ls := { sdep := sdep } } traps with mem := [(0x300000001F000, 5)] }

theorem witness_CallsAndReturns :
    let top := fun s : State => s.readN (0x3000000000000 + s.cur.core * 0x40000 + 0x1F000 + s.cur.ctx * 0x100 + 8 * (s.me.ls.sdep - 1)) 8
    ((calls 31 0).me.ls.sdep ≠ 32 ∧ ((calls 31 0).srcG 1).toNat < 8192) ∧
      ((calls 32 0).me.ls.sdep = 32 ∧ ((calls 32 0).srcG 1).toNat < 8192 ∧ MayEnter (calls 32 0) 0 0) ∧
      (8192 ≤ ((calls 0 0).srcG 2).toNat ∧ MayEnter (calls 0 0) 0 0) ∧
      ((calls 1 5).me.ls.sdep ≠ 0 ∧ ((calls 1 5).srcG 31).toNat = top (calls 1 5)) ∧
      ((calls 0 5).me.ls.sdep = 0 ∧ MayEnter (calls 0 5) 0 0) ∧
      ((calls 1 6).me.ls.sdep ≠ 0 ∧ ((calls 1 6).srcG 31).toNat ≠ top (calls 1 6) ∧ MayEnter (calls 1 6) 0 0) := by
  unfold MayEnter; decide +kernel

theorem witness_LoopBegin :
    ((one (ready [(1, 1)])).me.ls.act = false ∧ (one (ready [(1, 1)])).srcG 1 ≠ 0) ∧ (one (ready [(1, 1)])).srcG 0 = 0 ∧
      (let s := one { run := .ready, ls := { act := true } } traps
       s.me.ls.act = true ∧ MayEnter s 0 0) := by
  unfold MayEnter; decide +kernel

/-- A context in the last bundle of the body at 8191 that wraps to 0, of an active loop. -/
def looping (lc depth : Nat) : Ctx :=
  { run := .ready, pc := 0, lc := BitVec.ofNat 64 lc, ls := { act := true, len := 2, start := 8191, sdep := depth, rep := true, win := 3, rot := 2 } }

/-- A loop buffer of context 0 for the body at 8191, with one bundle captured. -/
def buffered1 (x : Ctx) : State := one x { trapvec := 0x20000, loopBuf := some (0, 8191, [(1, 2)]) }

theorem witness_EndOfBody :
    (let s := one (looping 2 0) traps
     let body := fun s : State => s.me.ls.act = true ∧ s.me.ls.rep = true ∧ (s.cur.pc - s.me.ls.start).toNat < s.me.ls.len
     let op := fun w0 : Nat => w0 / 2 ^ 24 % 128
     let barred := fun o : Nat => 0x01 ≤ o ∧ o ≤ 0x16 ∨ 0x19 ≤ o ∧ o ≤ 0x1F ∨ o = 0x4C
     body s ∧ MayEnter s 0 0 ∧ NoBody s ∧ s.my.ops = [] ∧ s.my.vq = [] ∧ privForm (.br 1) = false ∧ privForm (.std 16 17 0) = false ∧
       (∀ o ∈ [0x01, 0x16, 0x19, 0x1F, 0x4C], barred (op (o * 2 ^ 24))) ∧
       ∀ o ∈ [0x00, 0x17, 0x18, 0x20, 0x54, 0x60, 0x6E], ¬ barred (op (o * 2 ^ 24)) ∧ (op (o * 2 ^ 24) ≤ 0x54 ∨ 0x60 ≤ op (o * 2 ^ 24) ∧ op (o * 2 ^ 24) ≤ 0x6E)) ∧
    ((one (looping 2 0)).core 0).loopBuf = none ∧ ((one (looping 2 0)).ctx 0 0).ls.act = true ∧
    (let s := buffered1 (looping 2 0)
     let n := fun pc : PC => (pc - 8191).toNat
     (s.core 0).loopBuf = some (0, 8191, [(1, 2)]) ∧ [(1, 2)][n 8191]? = some (1, 2) ∧ [(1, 2)][n 0]? = none ∧ n 0 = [(1, 2)].length ∧
       n 0 < (s.ctx 0 0).ls.len ∧ n 0 < 64 ∧ (0 ≠ 10) ∧ (s.ctx 0 0).ls.act = true ∧ ((buffered1 (ready [])).ctx 0 0).ls.act = false) ∧
    (let inLoop := fun x : Ctx => x.ls.act = true ∧ x.ls.sdep = x.ls.ldep
     let e := fun x : Ctx => x.ls.start + BitVec.ofNat 13 x.ls.len - 1
     let leaves := fun (x : Ctx) (next : PC) (taken : Bool) => taken = true ∧ x.ls.len ≤ (next - x.ls.start).toNat
     ¬ inLoop (looping 2 1) ∧ (inLoop (looping 2 0) ∧ leaves (looping 2 0) 1 true) ∧
       (inLoop (looping 2 0) ∧ ¬ leaves (looping 2 0) 8191 true ∧ (8191 : PC) ≠ e (looping 2 0) + 1) ∧
       (inLoop (looping 2 0) ∧ ¬ leaves (looping 2 0) 1 false ∧ (looping 2 0).pc = e (looping 2 0) ∧ (1 : PC) = e (looping 2 0) + 1 ∧
         1 < (looping 2 0).lc.toNat) ∧
       (looping 1 0).lc.toNat ≤ 1) := by
  unfold MayEnter NoBody
  exact ⟨⟨by decide +kernel, by decide +kernel, by decide +kernel, rfl, rfl, rfl, rfl, by decide, by decide⟩, rfl, rfl, by decide +kernel, by decide +kernel⟩

theorem witness_HelperStart :
    (let s := one (ready [])
     s.cur.ctx = 0 ∧ (s.ctx 0 (10 : BitVec 4).toNat).run = .free ∧ Quiet s ∧ NoQueues s) ∧
      (let s := { one (ready []) traps with cur := { ctx := 1 } }
       s.cur.ctx ≠ 0 ∧ MayEnter s 0 1) ∧
      (let s := one (ready []) traps
       s.cur.ctx = 0 ∧ (s.ctx 0 (0 : BitVec 4).toNat).run ≠ .free ∧ MayEnter s 0 0) := by
  unfold Quiet NoQueues MayEnter; decide +kernel

theorem witness_Waiting :
    (let s : State := { cores := [(0, { ctxs := [(0, ready []), (10, ready [])] })] }
     s.cur.ctx = 0 ∧ ∃ h, 1 ≤ h ∧ h ≤ 10 ∧ (0x200 : BitVec 10).getLsbD (h - 1) = true ∧ (s.ctx s.cur.core h).run ≠ .free) ∧
    (let s := one (ready [])
     s.cur.ctx = 0 ∧ ¬ ∃ h, 1 ≤ h ∧ h ≤ 10 ∧ (0 : BitVec 10).getLsbD (h - 1) = true ∧ (s.ctx s.cur.core h).run ≠ .free) ∧
    (let s : State := { cur := { ctx := 10 }, cores := [(0, { ctxs := [(0, ready []), (10, ready [])] })] }
     s.cur.ctx ≠ 0 ∧ Quiet s ∧ NoneBlocked s s.cur.core) ∧
    (let s := one (super [])
     s.me.sup = true ∧ s.my.irq = []) ∧
    (let s := one (super []) { irq := [63] }
     s.me.sup = true ∧ s.my.irq ≠ []) := by
  refine ⟨⟨rfl, 10, by decide, by decide, by decide, by decide +kernel⟩, ⟨rfl, ?_⟩, ⟨by decide +kernel, by unfold Quiet; decide +kernel, ?_⟩,
    by decide +kernel, by decide +kernel⟩
  · rintro ⟨h, _, _, x, _⟩
    simp at x
  · exact noneBlocked _ (by decide +kernel) _

theorem witness_Privilege :
    let s := one (ready []) traps
    s.me.sup = false ∧ MayEnter s 0 0 ∧ (0x033 : BitVec 12).toNat ∈ [0x020, 0x030, 0x031, 0x032, 0x033] := by
  unfold MayEnter; decide +kernel

theorem witness_TrapEntries :
    MayEnter (one (ready []) traps) 0 0 ∧
    (let r : Report := { cause := .semOver, info := 63, entry := some 63 }
     let s := one { ready [] with reports := [r] } traps
     s.coreStill 0 = false ∧ (s.ctx 0 0).run = .ready ∧ (s.ctx 0 0).handler = [] ∧ (s.ctx 0 0).reports = [r] ∧ (s.ctx 0 0).tendStep = 0 ∧
       MayEnter s 0 0) ∧
    (let r : Report := { cause := .page, info := 1, ofTend := true }
     let x : Ctx := { ready [] with reports := [r], tendStep := 3 }
     x.reports = [r] ∧ x.tendStep ≠ 0 ∧ r.ofTend = true ∧ ({ r with entry := some 63, ofTend := false } : Report).entry.isSome = true) ∧
    (let s := one (ready []) { trapvec := 0x30000, irq := [9, 63] }
     s.coreStill 0 = false ∧ (s.ctx 0 0).run = .ready ∧ (s.ctx 0 0).tendStep = 0 ∧ NoneBlocked s 0 ∧ MayEnter s 0 0 ∧ (s.core 0).trapvec.getLsbD 16 = true ∧
       9 ∈ (s.core 0).irq ∧ ∀ m ∈ (s.core 0).irq, 9 ≤ m) := by
  refine ⟨by unfold MayEnter; decide +kernel, by unfold MayEnter; decide +kernel, by decide +kernel, by decide +kernel, by decide +kernel,
    by decide +kernel, noneBlocked _ (by decide +kernel) _, by unfold MayEnter; decide +kernel, by decide +kernel, by decide +kernel, by decide +kernel⟩

theorem witness_TrapDelegated :
    let s := one (ready [])
    (s.core 0).trapvec.getLsbD 17 = false ∧ (s.ctx 0 0).cause.inh = false := by decide +kernel
/-- R438: the last core, of a Granary, with a trap queue of partition 0 of two entries at the end of device memory: it holds none or one. -/
def trapQueue (head : Nat) : State :=
  { cores := [(3199, { ctxs := [(10, ready [])] })],
    io := { ev := [(3, { pend := true })], trapq := [(0, { base := 0x15FFFFFFFC0, size := 2, head := head, tail := 1 })] } }
theorem witness_TrapDelegated_queue :
    (∀ h ∈ [0, 1],
      let s := trapQueue h
      let q := s.io.trapq.get {} 0
      (s.core 3199).trapvec.getLsbD 17 = false ∧ (s.ctx 3199 10).cause.inh = false ∧ (s.io.ev.get {} 3).pend = true ∧ s.net = {} ∧
        ((q.size = 0 ∨ (q.tail + 1) % q.size = q.head) ↔ h = 0) ∧ 0x10000000000 ≤ q.base.toNat + 32 * q.tail ∧
        q.base.toNat + 32 * q.tail + 32 ≤ 0x16000000000) ∧ (State.reset.io.trapq.get {} 0).size = 0 := by decide +kernel

/-- R393: a context halted by delegation, with its resume. -/
def delegated (edits : List Edit) : State :=
  { one { (ready [(7, 1)]) with run := .delegated, trapPc := 9, cause := { ppriv := true, inh := true } } with agenda := [.resume 0 0 edits] }
theorem witness_TrapDelegated_resume :
    ∀ l ∈ [[], [Edit.g (31 : R5).toNat 5, .sys 0x032 ((8191 : PC).setWidth 64)]],
      let s := delegated l
      s.agenda = [.resume 0 0 l] ∧ s.coreStill 0 = false ∧ (s.ctx 0 0).run = .delegated ∧ (s.core 0).ops = [] ∧ (s.core 0).vq = [] ∧
        (s.core 0).mq = [] ∧ (s.core 0).cq = [] ∧ (s.core 0).xq = [] ∧ (s.ctx 0 0).reports = [] ∧ liveUnhalted (s.core 0) = false := by
  decide +kernel
/-- R393, R399: the resumed context is ready at TRAPPC, in the privilege that the trap found; or as system software has written it. -/
theorem test_resume_delegated :
    ([([], 9, 1), ([Edit.g 7 5, .sys 0x032 8191], 8191, 5)].all fun e =>
      match step (delegated e.1) with
      | .next t => decide ((t.ctx 0 0).run = .ready ∧ (t.ctx 0 0).pc = e.2.1 ∧ (t.ctx 0 0).sup = true ∧ (t.ctx 0 0).readG 7 = e.2.2)
      | _ => false) = true := by decide +kernel

theorem witness_EretReturns :
    let s := one (super [])
    s.me.sup = true ∧ s.my.ops = [] ∧ NoQueues s ∧ s.me.reports = [] := by unfold NoQueues; decide +kernel

theorem witness_SystemRegisters :
    (one (super [])).me.sup = true ∧ (one (super [])).me.cause.logix < 64 ∧ Tab.find (one (super [])).my.ops 0 = none ∧
      (one (super [])).cur.core < 3072 ∧ (∀ g ∈ [0, 127], ({ cur := { core := 3072 + g } } : State).cur.core = 3072 + g ∧ g < 128) ∧
      (let s := one { super [] with cause := { sel := 1, logix := 63 } } { ops := [(63, {})] }
       s.me.cause.logix < 64 ∧ Tab.find s.my.ops s.me.cause.logix = some {} ∧ s.me.cause.sel = 1) ∧
      (∀ b : Bool, let c : Cluster := { domain := { mode := if b then 15 else 0, level := 3 } }
        c.domain.mode.testBit c.domain.level = b) ∧
      (∀ n ∈ [1, 64], 1 ≤ n * 2 ^ 13 / 2 ^ 13 % 2 ^ 7 ∧ n * 2 ^ 13 / 2 ^ 13 % 2 ^ 7 ≤ 64) ∧
      ∀ n ∈ [0, 65], n * 2 ^ 13 / 2 ^ 13 % 2 ^ 7 = 0 ∨ 64 < n * 2 ^ 13 / 2 ^ 13 % 2 ^ 7 := by decide +kernel

/-! #### Memory -/

/-- Addresses and operands at the ends of the ranges: g1 the last 64 bytes of the TCM, g2 those below the shadow stacks, g3 and g4 the
ends of the shadow stacks (R106), g5 scratch, g6 a misaligned address. -/
def reach : Ctx :=
  ready [(1, 0x1FFC0), (2, 0x1EFC0), (3, 0x1F000), (4, 0x1FAFF), (5, 0x400020), (6, 0x400021), (7, 8), (8, 0x1FFE0), (9, 0x1EFE0),
    (10, 0x1FB00), (11, 0x20000)]

theorem witness_LocalLoads :
    let s := one reach
    Quiet s ∧ NoBody s ∧ s.poison = [] ∧ (s.srcG 1 + (0 : BitVec 14).signExtend 64).toNat + 64 ≤ 0x20000 ∧
      (s.srcG 1 + s.srcG 7 <<< (2 : BitVec 4).toNat).toNat + 32 ≤ 0x20000 := by
  unfold Quiet NoBody; decide +kernel

theorem witness_LocalStores :
    let s := one reach traps
    Quiet s ∧ NoBody s ∧ NoQueues s ∧ (∀ r ∈ s.my.rings, r.2.guard = false) ∧ (s.srcG 2 + (0 : BitVec 14).signExtend 64).toNat + 64 ≤ 0x1F000 ∧
      (s.srcG 2 + s.srcG 7 <<< (2 : BitVec 4).toNat).toNat + 32 ≤ 0x1F000 ∧ 0x1F000 < (s.srcG 3).toNat + 1 ∧ (s.srcG 4).toNat < 0x1FB00 ∧
      0x1F000 < 0x1EFFF + 2 ∧ (0x1FB00 ≤ (s.srcG 10).toNat ∧ (s.srcG 1).toNat + 64 ≤ 0x20000) ∧ NoCopies s ∧ MayEnter s 0 0 := by
  unfold Quiet NoBody NoQueues NoCopies MayEnter; decide +kernel

theorem witness_OperationsEnterLog :
    let s := one reach traps
    Quiet s ∧ NoBody s ∧ NoCopies s ∧ NoQueues s ∧ Allowed s false (s.srcG 5 + (0 : BitVec 14).signExtend 64) 8 ∧
      Allowed s true (s.srcG 5 + (0 : BitVec 14).signExtend 64) 8 ∧ Allowed s false (s.srcG 5 + s.srcG 7 <<< (6 : BitVec 4).toNat) 64 ∧
      ((s.srcG 5).toNat % 8 = 0 ∧ Allowed s true (s.srcG 5) 8) ∧ ((s.srcG 6).toNat % 4 ≠ 0 ∧ MayEnter s 0 0) ∧
      ((s.srcG 5).toNat % 16 = 0 ∧ Allowed s true (s.srcG 5) 16 ∧ s.cur.out = .go) ∧ (s.srcG 6).toNat % 16 ≠ 0 := by
  unfold Quiet NoBody NoCopies NoQueues Allowed MayEnter; decide +kernel

/-- The range of a maintenance operation leaves the local memory, in a compute phase (R317), or does not. -/
theorem witness_OperationsEnterLog_maintenance :
    let bars := fun (s : State) (a b : R5) => (s.srcG b).toNat ≠ 0 ∧ isGran s.cur.core = false ∧
      (s.cluster (clusterOf s.cur.core)).computePhase = true ∧ rangeLocal s.cur.core (s.srcG a).toNat (s.srcG b).toNat = false
    let s := { one (ready [(1, 0x1FFE0), (2, 32), (3, 33)]) traps with clusters := [(0, { domain := { mode := 1 } })] }
    Quiet s ∧ NoBody s ∧ ¬ bars s 1 2 ∧ bars s 1 3 ∧ MayEnter s 0 0 := by
  unfold Quiet NoBody MayEnter; decide +kernel

/-- A fetch of 32 bytes of scratch to the TCM at 0x40 whose data is back. -/
def fetched : State :=
  one (ready []) { fetches := [(3, { instr := .fetch 1 2 63, ea := 0x400000, size := 32, prog := 0x40, stage := .wait,
                                     parts := [{ va := 0x400000, pa := scratchBase 0, off := 0, n := 32, sent := true, got := some (List.replicate 32 7) }] })],
                   sems := [(63, { count := 65534 })] }

theorem witness_Fetch :
    (let s := one reach traps
     Quiet s ∧ NoBody s ∧ NoCopies s ∧ MayEnter s 0 0 ∧ Allowed s false (s.srcG 5) 32 ∧
       (∀ d ∈ [(8 : R5), 9, 10], (s.srcG 5).toNat % 32 = 0 ∧ (s.srcG d).toNat % 32 = 0 ∧ (s.srcG d).toNat ≤ 0x1FFE0 ∧
         ((s.srcG d).toNat < 0x1F000 ∨ 0x1FB00 ≤ (s.srcG d).toNat)) ∧
       ¬ ((s.srcG 6).toNat % 32 = 0 ∧ (s.srcG 8).toNat % 32 = 0) ∧ ((s.srcG 11).toNat % 32 = 0 ∧ 0x1FFE0 < (s.srcG 11).toNat) ∧
       ((s.srcG 3).toNat % 32 = 0 ∧ 0x1F000 ≤ (s.srcG 3).toNat ∧ (s.srcG 3).toNat < 0x1FB00)) ∧
    fetched.coreStill 0 = false ∧
    (∃ o, Tab.find (fetched.core 0).fetches 3 = some o ∧ o.instr = .fetch 1 2 63 ∧ o.allGot = true ∧ (∀ p ∈ o.parts, p.attrC = false ∧ p.again = false) ∧
      (fetched.core 0).loadsPending o.ctx o.stamp = false) ∧
    NoneBlocked fetched 0 ∧ ((fetched.core 0).sems.get {} (63 : BitVec 7).toNat).count < 65535 := by
  refine ⟨by unfold Quiet NoBody NoCopies Allowed MayEnter; decide +kernel, by decide +kernel, ⟨_, rfl, by decide +kernel⟩,
    noneBlocked _ (by decide +kernel) _, by decide +kernel⟩

theorem witness_Fences :
    let s := one (ready [])
    Quiet s ∧ CleanCaches s ∧ NoQueues s := by
  unfold Quiet CleanCaches NoQueues; decide +kernel

/-- A store by core 0 that waits for its translation, with tables that map 1 GiB from address 0 (R401, R402). -/
def walking : State :=
  { one (ready []) { ops := [(63, { instr := .std 1 2 0, ea := 0x1000000, size := 8, data := List.replicate 8 1 })] } with
    clusters := [(0, { ptroot := 0x10000000001 })],
    mem := memWrite (memWrite [] 0x10000000000 (toBytes 8 0x10000001001)) 0x10000001000 (toBytes 8 0x10040000027) }

/-- The result is one value. -/
def okIs {ε α : Type} [BEq α] (r : Except ε α) (x : α) : Bool :=
  match r with
  | .ok y => y == x
  | .error _ => false

theorem eq_of_okIs {ε α : Type} [BEq α] [LawfulBEq α] (r : Except ε α) (x : α) (h : okIs r x = true) : r = .ok x := by
  cases r with
  | ok y => exact congrArg _ (eq_of_beq h)
  | error e => cases h

theorem witness_WalkFillsTlb :
    walking.coreStill 0 = false ∧ Settled walking ∧ (∃ o, Tab.find (walking.core 0).ops 63 = some o ∧ isPlainStore o.instr = true ∧ o.stage = .walk ∧ o.flt = none ∧
      firstMiss walking 0 o.sup true o.ea.toNat o.size = some 0x1000000) ∧
      ∃ p, walkPage walking (clusterOf 0) 0x1000000 = .ok p :=
  ⟨by decide +kernel, by unfold Settled; decide, ⟨_, rfl, by decide +kernel⟩,
    { vbase := 0, size := 2 ^ 30, pbase := 0x10040000000, u := true, repl := false, c := false, w := true },
    eq_of_okIs _ _ (by decide +kernel)⟩

/-- A cluster whose walk of address 0 meets four entries of tables. -/
def tables (root : Word) (e1 e2 e3 e4 : Nat) : State :=
  let put := fun (a v : Nat) (m : List Host.Cell) => memWrite m a (toBytes 8 v)
  { clusters := [(0, { ptroot := root })],
    mem := put 0x10000000000 e1 (put 0x10000001000 e2 (put 0x10000002000 e3 (put 0x10000003000 e4 []))) }

/-- What a walk finds, level by level: no entry, a table beyond device memory, a leaf or the next table. -/
theorem witness_WalkFillsTlb_tables :
    let device := fun (a : Nat) => decide (0x10000000000 ≤ a ∧ a < 0x16000000000)
    let pa := fun (e : Nat) => e / 2 ^ 8 % 2 ^ 42 * 2 ^ 8
    let good := fun (e n : Nat) => e.testBit 0 && e / 2 ^ 50 == 0 && e / 2 ^ 6 % 4 == 0 && pa e % n == 0
    let next := fun (e n : Nat) => good e n && !e.testBit 1
    let leaf := fun (e n : Nat) => good e n && e.testBit 1
    let t := tables 0x10000000001
    let e := fun (s : State) (i : Nat) => s.readN (0x10000000000 + 0x1000 * i) 8
    Reachable (t 0 0 0 0) ∧ (t 0 0 0 0).poison = [] ∧ (State.reset.cluster 0).ptroot.toNat.testBit 0 = false ∧ device 0 = false ∧
      (t 0 0 0 0).readN (pa 0x10000000001 + 8 * 0) 8 = 0 ∧ next 0 4096 = false ∧
      (let s := t 0x10000001001 0x10040000003 0 0
       next (e s 0) 4096 = true ∧ device (pa (e s 0)) = true ∧ leaf (e s 1) (2 ^ 30) = true ∧ device (pa (e (t 1 0 0 0) 0)) = false ∧
         next (e (t 1 0 0 0) 0) 4096 = true ∧ next 3 4096 = false ∧ leaf 0x10000001003 (2 ^ 30) = false) ∧
      (let s := t 0x10000001001 0x10000002001 0x10000200003 0
       next (e s 1) 4096 = true ∧ device (pa (e s 1)) = true ∧ leaf (e s 2) (2 ^ 21) = true ∧ leaf 0x10000010003 (2 ^ 21) = false) ∧
      (let s := t 0x10000001001 0x10000002001 0x10000003001 0x15FFFFF002F
       next (e s 2) 256 = true ∧ device (pa (e s 2)) = true ∧ leaf (e s 3) (2 ^ 16) = true ∧ leaf 0x15FFFFF0001 (2 ^ 16) = false) := by
  exact ⟨reachable_net _ rfl, by decide +kernel⟩

/-- A page that ends where a region of R132 ends, or begins there; with the rights that deny a user's write, or with all. -/
theorem witness_WalkFillsTlb_look :
    (∀ pb ∈ [0x10000000000, 0x15FFFFF0000, 0x1000000000000, 0x2FFFFFFFF0000, 0, 0x16000000000, 0x3000000000000],
      let p : TlbEntry := { vbase := 0x7FFFFFFF0000, size := 2 ^ 16, pbase := pb, u := true, repl := false, c := true, w := true }
      let s : State := { clusters := [(383, { ptroot := 1, tlb := [p] })] }
      let c := s.cluster (3071 / 8)
      c.computePhase = false ∧ c.ptroot.getLsbD 0 = true ∧ c.tlb = p :: [] ∧ p.vbase ≤ 2 ^ 47 - 1 ∧ 2 ^ 47 - 1 < p.vbase + p.size ∧
        ¬ (true = true ∧ p.w = false ∨ false = false ∧ p.u = false) ∧ (true = true ∧ ({ p with w := false } : TlbEntry).w = false) ∧
        ∀ q ∈ c.tlb, ¬ (q.vbase ≤ 0x1000000 ∧ 0x1000000 < q.vbase + q.size)) ∧ (State.reset.cluster 0).ptroot.getLsbD 0 = false := by decide +kernel

theorem witness_DrainReachesMemory :
    let e : WbEntry := { bank := 7, sector := (tcmBase 0 + 0x1FFE0) / 32, cached := false, wpage := true, bytes := [(0, 1, 0, 0), (31, 2, 0, 0)] }
    let s := one (ready []) { wb := [e] }
    s.coreStill 0 = false ∧ (s.core 0).wb = [e] ∧ (s.core 0).ops = [] ∧ e.cached = false ∧ homeAt (e.sector * 32) = .tcm 0 0x1FFE0 ∧
      e.bytes.Pairwise (fun a b => a.1 ≠ b.1) := by decide +kernel

/-- An access by core 0 to device memory, as its home has it. -/
def asked (k : AccessKind) (data : Tab (Byte × Nat × Nat)) (m : List Host.Cell) : State :=
  { net := { ifaces := [(384, { arr := [{ kind := k, pa := 0x10000000000, n := 8, data := data, core := 0, ctx := 0, stamp := 0, asker := .op 0 0 0 }] })] },
    mem := m }

theorem witness_HomePerforms :
    (∀ k ∈ [AccessKind.read, .write, .atomic 7 64 true (2 ^ 64 - 1) 0, .atomic 0 32 false 1 0, .frd, .fwr (2 ^ 64 - 1) true],
      ∃ a, ((asked k [(0, 1, 0, 0), (7, 2, 0, 0)] [(0x10000000008, 1)]).iface 384).arr = [a] ∧ a.kind = k ∧ homeAt a.pa = .device ∧
        a.replica = false ∧ a.err = false ∧ tileOf a.core ≠ 384 ∧ a.asker ≠ .none ∧ a.data.Pairwise (fun x y => x.1 ≠ y.1)) ∧
      (asked .frd [] [(0x10000000008, 1)]).readN (0x10000000000 + 8) 8 = 1 ∧ (asked (.fwr 5 true) [] []).readN (0x10000000000 + 8) 8 = 0 ∧
      (asked .read [] []).tileStopped 384 = false ∧ (asked .read [] []).poison = [] := by
  refine ⟨fun k hk => ?_, by decide +kernel⟩
  simp only [List.mem_cons, List.not_mem_nil, or_false] at hk
  rcases hk with h | h | h | h | h | h <;> subst h <;> exact ⟨_, rfl, by decide +kernel⟩

/-- An operation whose data is back. -/
def back (i : Instr) (run : Run) : State :=
  one { run := run } { ops := [(63, { instr := i, ea := 0x400000, size := 8, stage := .wait,
                                      parts := [{ va := 0x400000, pa := scratchBase 0, off := 0, n := 8, sent := true, got := some (List.replicate 8 0x80) }] })] }

theorem witness_DataReturns :
    ∀ e ∈ [(Instr.rldw 31 2 0, Run.ready), (.ldbx 31 2 3 .acq .dev 6, .ready), (.acas 31 2 3 .ar .dev .n32, .ready),
      (.ldvx 31 2 3 .acq .dev 6, .ready), (.frd 31 2, .blocked (.frd 63))],
      let s := back e.1 e.2
      s.coreStill 0 = false ∧ ∃ o, Tab.find (s.core 0).ops 63 = some o ∧ o.instr = e.1 ∧ o.allGot = true ∧
        (s.core 0).loadsPending o.ctx o.stamp = false ∧ (∀ p ∈ o.parts, p.attrC = false ∧ p.again = false) ∧ (s.ctx 0 o.ctx).run = e.2 := by
  intro e he
  simp only [List.mem_cons, List.not_mem_nil, or_false] at he
  rcases he with h | h | h | h | h <;> subst h <;> exact ⟨by decide +kernel, _, rfl, by decide +kernel⟩

/-! #### The vector unit -/

theorem witness_VectorQueue :
    (let s := one (ready [(1, 0x80), (2, 0x40), (4, 8)]) { trapvec := 0x20000, vq := List.replicate 15 {}, owners := [{ stamp := 0, first := 8, count := 8, batch := 0 }] }
     s.my.vq.length < 16 ∧ NoBody s ∧
       ((s.srcG 1).toNat % (Ty.n64.w / 8) = 0 ∧ (s.srcG 2).toNat % (Ty.n64.w / 8) = 0 ∧
         (true = true → (s.atIssue.readG ((3 : R5).toNat + 1)).toNat % (Ty.n64.w / 8) = 0)) ∧
       (¬ ∃ o ∈ s.my.owners, o.first ≤ (7 : R5).toNat ∧ (7 : R5).toNat < o.first + ownCount s.my o) ∧
       (∃ o ∈ s.my.owners, o.first ≤ (15 : R5).toNat ∧ (15 : R5).toNat < o.first + ownCount s.my o) ∧ MayEnter s 0 0) ∧
    (let m : Cmd := { instr := .vmovi 3 5, idx := 4, ctx := 2 }
     let s : State := { cores := [(3071, { vq := [m] })] }
     s.clusterStill 383 = false ∧ (s.cluster 383).arbP = 0 ∧ (s.cluster 383).arbD = [] ∧ (s.cluster 383).vshare = [] ∧
       (∀ i ∈ coresOf 383, i ≠ 383 * 8 + 7 → (s.core i).vq = []) ∧ (∀ e ∈ (s.core (383 * 8 + 7)).vq, e.started = false) ∧
       vecHead (s.core (383 * 8 + 7)) = some m) ∧
    ∀ rm ∈ [Rm.dflt, .rdn], ∀ n ∈ [1, 4],
      let m : Cmd := { instr := .vrsum 3 1 0 .bf16 rm }
      let s : State := { cores := [(3071, { vq := [m], mstat := { rm := n } })] }
      s.clusterStill 383 = false ∧ (s.cluster 383).arbP = 0 ∧ (∀ i ∈ coresOf 383, i ≠ 383 * 8 + 7 → (s.core i).vq = []) ∧
        vecHead (s.core (383 * 8 + 7)) = some m ∧ m.instr = .vrsum 3 1 0 .bf16 rm ∧ (s.core (383 * 8 + 7)).mstat.rm = n := by
  unfold NoBody MayEnter; decide +kernel

/-- A cluster whose core 9 has an instruction on lane group 2. -/
def onLanes (i : Instr) (vals : List Word) : State × Cmd :=
  let m : Cmd := { instr := i, started := true, group := 2, ctx := 3, pred := 0x5555, vals := vals }
  ({ cores := [(9, { ctxs := [(3, { v := [(1, 0x807F), (2, 0x017F), (3, 0xFFFF)] })], vq := [m] })] }, m)

/-- A core with a gather, a scatter or an intersection of index lists at its lane group. -/
theorem witness_VectorQueue_performed :
    (∀ i ∈ [Instr.vgat 3 1 2 5 .n32, .vsct 3 1 2 5 .n32],
      let s := onLanes i [0x1EFFC - 4 * 0x017F]
      Holds s.1 1 9 2 s.2 ∧ s.2.instr = i ∧ s.1.poison = [] ∧ s.2.vals = [0x1EFFC - 4 * 0x017F] ∧ (∀ r ∈ (s.1.core 9).rings, r.2.guard = false) ∧
        ∀ j, j < 16 → s.2.pred.getLsbD j = true →
          (0x1EFFC - 4 * 0x017F : Word).toNat + (((s.1.ctx 9 3).readV 2).extractLsb' (32 * j) 32).toNat * 4 + 4 ≤ 0x1F000) ∧
    (∀ o ∈ [false, true],
      let vals := [0x1FFFC, 1, 0x1FFFC, 1, 2 ^ 64 - 1, 0x1EFFC].map (BitVec.ofNat 64)
      let s := onLanes (.sisect 28 4 8 .n32 o) vals
      Holds s.1 1 9 2 s.2 ∧ s.2.instr = .sisect 28 4 8 .n32 o ∧ s.2.vals = vals ∧ Wf.sisectRegs 28 4 8 o ∧ 0x1FFFC + 4 * 1 ≤ 0x20000 ∧
        0x1EFFC + 4 ≤ 0x1F000) := by
  unfold Holds
  refine ⟨fun i hi => ?_, by decide +kernel⟩
  simp only [List.mem_cons, List.not_mem_nil, or_false] at hi
  rcases hi with h | h <;> subst h <;> decide +kernel

theorem witness_VectorElementwise_floats :
    (let s := onLanes (.vfma 3 1 2 5 .f32 .rne) []
     Holds s.1 1 9 2 s.2 ∧ s.2.instr = .vfma 3 1 2 5 .f32 .rne ∧ Ty.f32.fmt.decode 0x3FC00000 = .fin false 12582912 (-23)) ∧
    (∀ e ∈ [(Ty.f32, Ty.e5m2), (.e4m3, .f32), (.n8, .e4m3)],
      let s := onLanes (.vcvt 3 1 e.2 5 e.1 .rne) []
      Holds s.1 1 9 2 s.2 ∧ s.2.instr = .vcvt 3 1 e.2 5 e.1 .rne) ∧
    (∀ t ∈ [Ty.e4m3, .e5m2],
      let s := onLanes (.vmov 3 1 5 t) []
      Holds s.1 1 9 2 s.2 ∧ s.2.instr = .vmov 3 1 5 t) := by
  unfold Holds; decide +kernel

theorem witness_VectorElementwise :
    let s := onLanes (.vadd 3 1 2 5 .i8 .dflt) []
    Holds s.1 1 9 2 s.2 ∧ s.2.instr = .vadd 3 1 2 5 .i8 .dflt ∧ Ty.i8.signed = true := by
  unfold Holds; decide +kernel

theorem witness_VectorAcrossLanes :
    (let s := onLanes (.vceq 3 1 2 5 .n32) []
     Holds s.1 1 9 2 s.2 ∧ s.2.instr = .vceq 3 1 2 5 .n32) ∧
    (let s := onLanes (.vbcast 3 4 5 .i16) [7]
     Holds s.1 1 9 2 s.2 ∧ s.2.instr = .vbcast 3 4 5 .i16 ∧ s.2.vals = [7]) ∧
    (let s := onLanes (.vextg 4 1 2 .i8) [0, 65]
     Holds s.1 1 9 2 s.2 ∧ s.2.instr = .vextg 4 1 2 .i8 ∧ s.2.vals = [0, 65]) ∧
    (let s := onLanes (.vslide 3 1 2 5 .f32) [0, -15]
     Holds s.1 1 9 2 s.2 ∧ s.2.instr = .vslide 3 1 2 5 .f32 ∧ s.2.vals = [0, -15]) ∧
    (∀ i ∈ [Instr.vrsum 3 1 5 .bf16 .rne, .vrmax 3 1 5 .f32, .vclt 3 1 2 5 .f16, .vsel 3 1 2 5 .e4m3, .vperm 3 1 2 5 .e5m2],
      let s := onLanes i []
      Holds s.1 1 9 2 s.2 ∧ s.2.instr = i) := by
  unfold Holds; decide +kernel

/-! #### The Mill -/

/-- Rings 2 and 3 of 64 slots, shape 0 of a dense product and shape 1 of a walk at their limits, and registers for them. -/
def milling : State :=
  one (ready [(1, 0x3FFFE0), (2, 0x3FFFE0), (3, 0), (4, 0x3FFFC0), (5, 0x1000000), (6, 0x3FFE00 + 0x3FFF00 * 2 ^ 32), (7, 64), (9, 0xFFFFFFFF)])
    { trapvec := 0x20000, mq := List.replicate 15 {}, rings := [(2, ⟨0, 64, 64, false, 0, 0, 0⟩), (3, ⟨0, 64, 64, false, 0, 0, 0⟩)],
      shapes := [(0, ⟨64, 64, 65535, 65535, 1, 1⟩), (1, ⟨64, 64, 65535, 0, 1, 0⟩)] }

theorem witness_MillEntersQueue :
    let s := milling
    let g := fun (b : R5) (j : Nat) => (s.atIssue.readG (b.toNat + j)).toNat
    let f := fun (x hi lo : Nat) => x / 2 ^ lo % 2 ^ (hi + 1 - lo)
    let tiles := fun h : Shape => (h.m + 15) / 16 * ((h.n + 15) / 16)
    let h0 := s.my.shapes.get {} (0 : BitVec 3).toNat
    let h1 := s.my.shapes.get {} (1 : BitVec 3).toNat
    s.my.mq.length < 16 ∧ NoBody s ∧ (Tab.find s.my.rings (2 : R5).toNat).isSome = true ∧ (Tab.find s.my.rings (3 : R5).toNat).isSome = true ∧
      (1 ≤ h0.m ∧ h0.m ≤ 64 ∧ tiles h0 ≤ 16 ∧ (0 : R5).toNat + tiles h0 ≤ 16 ∧ 1 ≤ h0.n ∧ h0.ka = h0.kb ∧ h0.ka ≠ 0) ∧
      (g 1 0 % 32 = 0 ∧ g 1 0 < 2 ^ 22) ∧ (g 2 0 % 32 = 0 ∧ g 2 0 < 2 ^ 22 ∧ f (g 2 1) 31 16 = 0) ∧
      (1 ≤ h1.m ∧ h1.m ≤ 64 ∧ tiles h1 ≤ 16 ∧ (0 : R5).toNat + tiles h1 ≤ 16 ∧ 1 ≤ h1.n ∧ h1.ka ≠ 0 ∧ h1.kb = 0 ∧ h1.bstr = 0 ∧
        f (g 4 1) 23 0 < f (g 4 1) 47 24 ∧ f (g 4 1) 63 56 = 0 ∧ f (g 4 2) 31 22 = 0 ∧ f (g 4 2) 63 54 = 0 ∧ g 4 0 % 64 = 0 ∧
        f (g 4 2) 21 0 % 8 = 0 ∧ f (g 4 2) 53 32 % 4 = 0 ∧ f (g 4 2) 21 0 + 8 * h1.m ≤ 0x400000 ∧ f (g 4 2) 53 32 + 4 * h1.m ≤ 0x400000) ∧
      (1 ≤ (4 : R5).toNat ∧ (4 : R5).toNat ≤ 29 ∧ (29 : R5).toNat ≤ 29 ∧ 29 < (30 : R5).toNat ∧ (0 : R5).toNat < 1 ∧ MayEnter s 0 0) ∧
      ((0 : R5).toNat + (15 : R5).toNat + 1 ≤ 16 ∧ Tab.find s.my.rings (15 : R5).toNat = none) ∧
      ∃ r, Tab.find s.my.rings (2 : R5).toNat = some r ∧ 1 ≤ (s.srcG 7).toNat ∧ (s.srcG 7).toNat ≤ r.nslot := by
  refine ⟨by decide, by unfold NoBody; decide, by decide, by decide, by decide +kernel, by decide +kernel, by decide +kernel, by decide +kernel,
    by unfold MayEnter; decide, by decide, _, rfl, by decide +kernel⟩

/-- Batches 0 and 1 closed, with commands left of batch 0. -/
def batches : State :=
  one (ready [(1, 0x3FFFC0), (2, 1 + 1 * 256), (3, 0x3FFFE0), (4, 64), (5, 2 ^ 48 - 1), (6, 2 ^ 32 - 1), (7, 2 ^ 48), (8, 2 ^ 32)])
    { trapvec := 0x20000, mq := [{ instr := .mma 15 2 1 0 false false false .rne, batch := 0 }], closed := [0], openBatch := 1,
      rings := [(2, ⟨0, 64, 64, false, 0, 0, 0⟩)] }

theorem witness_RingsAndBatches :
    let f := fun (v hi lo : Nat) => v / 2 ^ lo % 2 ^ (hi + 1 - lo)
    let good := fun x y : Nat => x < 2 ^ 22 ∧ x % 32 = 0 ∧ 1 ≤ f y 6 0 ∧ f y 6 0 ≤ 64 ∧ 64 ≤ f y 19 8 * 64 ∧ f y 7 7 = 0 ∧ f y 30 20 = 0 ∧
      y < 2 ^ 32 ∧ x + f y 6 0 * (f y 19 8 * 64) ≤ 0x400000
    let names := fun (m : Cmd) (k : R5) => m.mill.aborted = false ∧ ∃ (acc c g : R5) (n : BitVec 3) (hb ha z kp : Bool) (rm : Rm), m.instr ∈
      [Instr.mma acc k g n hb ha z rm, .mmaz acc k g n hb ha z rm, .mma acc c k n hb ha true rm, .mmaz acc c k n hb ha true rm,
        .mmt acc k g n z ha rm, .twalk acc k g n z kp ha rm, .twres acc k g n z kp ha rm, .rpop k g]
    let s := batches
    (∀ m ∈ s.my.mq, ¬ names m 3) ∧ (∃ m ∈ s.my.mq, names m 2) ∧ good (s.srcG 1).toNat (s.srcG 2).toNat ∧ ¬ good (s.srcG 3).toNat (s.srcG 2).toNat ∧ MayEnter s 0 0 ∧
      (∃ r, Tab.find s.my.rings (2 : R5).toNat = some r ∧ s.my.wb = [] ∧ r.fill + (s.srcG 4).toNat ≤ r.nslot) ∧
      Tab.find s.my.rings (3 : R5).toNat = none ∧ (s.srcG 5).toNat < 2 ^ 48 ∧ (s.srcG 6).toNat < 2 ^ 32 ∧ 2 ^ 48 ≤ (s.srcG 7).toNat ∧
      2 ^ 32 ≤ (s.srcG 8).toNat ∧ s.my.outstanding.length < 31 ∧
      s.my.outstanding.length ≤ (1 : R5).toNat ∧ (0 : R5).toNat < s.my.outstanding.length := by
  unfold MayEnter
  refine ⟨?_, ⟨_, List.mem_singleton.2 rfl, rfl, 15, 0, 1, 0, false, false, false, false, .rne, List.mem_cons_self⟩, by decide +kernel,
    by decide +kernel, by decide, ⟨_, rfl, by decide +kernel⟩, by decide +kernel⟩
  intro m hm ⟨_, acc, c, g, n, hb, ha, z, kp, rm, h⟩
  obtain rfl := List.mem_singleton.1 hm
  simp at h

/-- A core with one command at the head of its Mill queue and a ring of one slot, filled. -/
def headed (m : Cmd) : State := one (ready []) { mq := [m], fmta := 0, fmtb := 0, rings := [(2, ⟨0x1000, 64, 1, false, 0, 1, 0⟩)] }
/-- A dense product of one element. -/
def dense1 : Cmd := { instr := .mma 15 2 1 0 false false false .rne, vals := [0x2000], shape := ⟨1, 1, 1, 1, 1, 1⟩ }

theorem witness_MillQueueHead :
    (let s := headed { instr := .aclr 0 15 1, vals := [0] }
     s.coreStill 0 = false ∧ (Tab.find (s.core 0).holds 1).isSome = false ∧ NoneBlocked s 0 ∧ (s.core 0).vq = [] ∧
       (s.cluster (clusterOf 0)).millP = lcoreOf 0) ∧
    (let m : Cmd := { instr := .rpop 2 1, vals := [1] }
     let s := headed m
     (s.core 0).mq = m :: [] ∧ ∃ r, Tab.find (s.core 0).rings (2 : R5).toNat = some r ∧ ((m.vals[0]?).getD 0).toNat ≤ r.fill - r.taken) ∧
    (let m : Cmd := { dense1 with started := true, mill := { finished := true } }
     let s := headed m
     (s.core 0).mq = m :: [] ∧ m.instr = .mma 15 2 1 0 false false false .rne ∧ m.started = true ∧ m.mill.finished = true ∧
       (Tab.find (s.core 0).rings (2 : R5).toNat).isSome = true) ∧
    (let s := headed dense1
     (s.core 0).mq = dense1 :: [] ∧ dense1.started = false ∧ (s.core 0).vq = [] ∧
       (∃ r, Tab.find (s.core 0).rings (2 : R5).toNat = some r ∧ r.taken < r.fill) ∧
       denseStartFault s 0 (sampleMill (s.core 0) dense1 .rne (2 : R5).toNat none) ⟨(15 : R5).toNat, (2 : R5).toNat, none, .rne, false, false, false, false⟩ = none) := by
  refine ⟨⟨by decide +kernel, by decide +kernel, noneBlocked _ (by decide +kernel) _, by decide +kernel⟩, ⟨rfl, _, rfl, by decide +kernel⟩,
    ⟨rfl, rfl, rfl, rfl, by decide +kernel⟩, ⟨rfl, rfl, rfl, ⟨_, rfl, by decide +kernel⟩, by decide +kernel⟩⟩

theorem witness_MillIntegerStep :
    let m : Cmd := { dense1 with started := true, mill := { fmtA := 0, fmtB := 0 } }
    let s := headed m
    let x := s.core 0
    s.clusterStill 0 = false ∧ (s.cluster 0).millP = 0 ∧ (s.cluster 0).mweight = [] ∧ (Tab.find x.holds 1).isSome = false ∧ x.mq = m :: [] ∧
      m.started = true ∧ m.mill.finished = false ∧ m.prog = 0 ∧ fmtTy m.mill.fmtA = .i8 ∧ fmtTy m.mill.fmtB = .i8 ∧ m.mill.sclA = 0 ∧
      m.mill.sclB = 0 ∧ (Tab.find x.rings (2 : R5).toNat).isSome = true ∧
      m.mill.bookBad = false ∧ rangesFit s 0 (rangesOf x m ⟨(15 : R5).toNat, (2 : R5).toNat, none, .rne, false, false, false, false⟩ 0 1 0 1 0 1) = true ∧ s.poison = [] := by
  decide +kernel

/-- A walk of one row at its start, whose record (at offset 0x40 of scratch) names node 5 of 5. -/
def walked : State × Cmd :=
  let m : Cmd := { instr := .twalk 0 2 4 1 false false false .rne, started := true, shape := ⟨1, 1, 1, 0, 1, 0⟩, vals := [0, 5 * 2 ^ 24, 0x40] }
  ({ headed m with mem := memWrite [] (scratchBase 0 + 0x40) (toBytes 8 5) }, m)

theorem witness_WalkWave_invalidRow :
    let s := walked.1
    let m := walked.2
    let x := s.readN (scratchBase (clusterOf 0) + m.wsa) 8
    s.coreStill 0 = false ∧ NoneBlocked s 0 ∧ (Tab.find (s.core 0).holds 1).isSome = false ∧ (s.core 0).mq = m :: [] ∧ m.started = true ∧
      (∃ w, walkOf m.instr = some w ∧ w.trp = false) ∧ (classOf (fmtTy m.mill.fmtA) (fmtTy m.mill.fmtB)).isSome = true ∧ m.shape.m = 1 ∧
      (s.cluster (clusterOf 0)).millP = lcoreOf 0 ∧ m.mill.steps = 0 ∧
      m.mill.bookBad = false ∧ rangesFit s 0 (walkRanges m ++ bookRanges m) = true ∧ s.poison = [] ∧ x / 2 ^ 29 % 8 = 0 ∧ x / 2 ^ 24 % 32 ≤ 16 ∧ x.testBit 36 = false ∧
      m.nnode ≤ x % 2 ^ 24 := by
  refine ⟨by decide +kernel, noneBlocked _ (by decide +kernel) _, by decide +kernel, rfl, rfl, ⟨_, rfl, rfl⟩, by decide +kernel⟩

/-! #### Semaphores, the Carter, the carve-out -/

/-- A walk of one row (its record at offset 0x40 of scratch, its leaf-id vector at 0x48) whose one node has a control word, a width of
its output, a second child and a leaf id; its matrix and its row are zero. -/
def atNode (ctrl dout child id depth : Nat) : State × Cmd :=
  let node := toBytes 4 ctrl ++ toBytes 2 1 ++ toBytes 2 dout ++ toBytes 8 0x402000 ++ toBytes 8 0 ++ toBytes 4 id ++ toBytes 4 0 ++
    toBytes 4 0 ++ toBytes 4 child
  let m : Cmd := { instr := .twalk 0 2 4 1 false false false .rne, started := true, shape := ⟨1, 1, 1, 0, 2, 0⟩,
                   vals := [0x400800, 2 ^ 24, 0x40 + 0x48 * 2 ^ 32], mill := { fmtA := 0, fmtB := 0 } }
  ({ headed m with mem := memWrite (memWrite [] (scratchBase 0 + 0x40) (toBytes 8 (depth * 2 ^ 24 + 0xFFFFFF * 2 ^ 40))) (scratchBase 0 + 0x800) node }, m)

/-- A node of each decision, whose products are all zero, a leaf and a malformed node; at the last depth, and with a child on both sides
of the node count. -/
theorem witness_WalkWave :
    (∀ e ∈ [(0x20, 1, 0, 0, 15), (0x20, 1, 1, 0, 0), (0x20, 1, 0, 0, 16), (0x22, 2, 0, 0, 0), (0x24, 1, 0, 0, 0), (1, 1, 0, 0xFFFFFFFE, 16), (1, 2, 0, 0, 0)],
      let s := (atNode e.1 e.2.1 e.2.2.1 e.2.2.2.1 e.2.2.2.2).1
      let m := (atNode e.1 e.2.1 e.2.2.1 e.2.2.2.1 e.2.2.2.2).2
      let x := s.readN (scratchBase 0 + m.wsa) 8
      let f := fun (off n : Nat) => s.readN (scratchBase 0 + 0x800 + off) n
      let bits := fun (hi lo : Nat) => f 0 4 / 2 ^ lo % 2 ^ (hi + 1 - lo)
      let leaf := decide (bits 31 1 = 0 ∧ f 16 8 = 0 ∧ (∀ j ∈ List.range 8, f (32 + 4 * j) 4 = 0) ∧ f 24 4 ≠ 0xFFFFFFFF)
      let inner := decide (2 ≤ bits 7 4 ∧ bits 7 4 ≤ 8 ∧ (bits 2 1 ≠ 1 → bits 7 4 = 2) ∧ (bits 2 1 = 1 → bits 7 4 ≤ f 6 2) ∧
        (∀ j ∈ List.range 8, bits 7 4 ≤ j → f (32 + 4 * j) 4 = 0) ∧ f 24 4 = 0 ∧ (bits 2 1 ≠ 2 → f 16 8 = 0) ∧ f 16 8 < 2 ^ 32)
      let formed := decide (f 28 4 = 0 ∧ bits 31 14 = 0 ∧ bits 3 3 = 0 ∧ bits 2 1 ≠ 3 ∧ f 4 2 ≠ 0 ∧ f 6 2 ≠ 0 ∧ f 8 8 % 32 = 0) &&
        if bits 0 0 = 1 then leaf else inner
      let chained := decide (f 4 2 = m.shape.ka ∧ (bits 0 0 = 0 → f 6 2 ≤ m.shape.astr) ∧ (bits 0 0 = 1 → f 6 2 = m.shape.n))
      (s.coreStill 0 = false ∧ (Tab.find (s.core 0).holds 1).isSome = false ∧ (s.core 0).mq = m :: [] ∧ m.started = true ∧
        walkOf m.instr = some ⟨0, 2, false, false, false, .rne, true⟩) ∧
        (fmtTy m.mill.fmtA = .i8 ∧ fmtTy m.mill.fmtB = .i8 ∧ m.shape.m = 1 ∧ (s.cluster 0).millP = lcoreOf 0 ∧ m.mill.steps = 0 ∧
          m.mill.bookBad = false ∧ s.poison = [] ∧ m.wcap = 0) ∧
        (x / 2 ^ 29 % 8 = 0 ∧ x / 2 ^ 24 % 32 ≤ 16 ∧ x / 2 ^ 24 % 32 = e.2.2.2.2 ∧ x.testBit 36 = false ∧ x % 2 ^ 24 < m.nnode ∧ x / 2 ^ 40 = 0xFFFFFF) ∧
        (scratchPart s 0 ≤ 0x400000 ∧ 0x1000 + 64 ≤ scratchPart s 0 ∧ f 8 8 - 0x400000 + 64 ≤ scratchPart s 0 ∧ m.gB = 0x400800 ∧
          m.wsa + 8 ≤ m.lia) ∧
        (formed && chained) = (e != (1, 2, 0, 0, 0)) ∧ (m.nnode ≤ f 36 4 ↔ e.2.2.1 = 1)) ∧
    NoneBlocked (atNode 0x20 1 0 0 15).1 0 := by
  refine ⟨?_, noneBlocked _ (by decide +kernel) _⟩
  decide +kernel

theorem witness_Semaphores :
    let s := one (ready [(1, 1), (2, 65536), (3, 65535)]) { trapvec := 0x20000, sems := [(63, { count := 65534 })] }
    Quiet s ∧ CleanCaches s ∧ NoneBlocked s s.cur.core ∧ (s.my.sems.get {} (63 : BitVec 7).toNat).count ≠ 0 ∧
      (s.my.sems.get {} (0 : BitVec 7).toNat).count = 0 ∧ (s.my.sems.get {} (63 : BitVec 7).toNat).count + (s.srcG 1).toNat ≤ 65535 ∧
      (s.my.sems.get {} (0 : BitVec 7).toNat).count + (s.srcG 3).toNat ≤ 65535 ∧ MayEnter s 0 0 ∧ 65535 < (s.srcG 2).toNat := by
  refine ⟨by unfold Quiet; decide +kernel, by unfold CleanCaches; decide +kernel, noneBlocked _ (by decide +kernel) _, ?_⟩
  unfold MayEnter; decide +kernel

/-- The conditions on CPFMT of a copy that may be launched (R301, R304). -/
def copyForm (r : CopyRegs) : Bool :=
  let f := fun (hi lo : Nat) => r.fmt.toNat / 2 ^ lo % 2 ^ (hi + 1 - lo)
  f 3 0 < 14 && f 7 4 < 14 && f 10 8 < 5 &&
    (f 12 11 == 0 || (f 14 14 == 0 && [Ty.i32, .i64, .n32, .n64, .f64, .f32, .bf16, .f16].contains (Ty.ofCode (f 7 4)))) &&
    (f 14 14 == 0 || f 39 16 != 0)

theorem witness_CopyLaunch :
    let s := one { ready [] with cp := { fmt := 0xDD } } { cq := List.replicate 15 {} }
    let t := one { ready [] with cp := { fmt := 0xE } } traps
    NoBody s ∧ (∀ e ∈ s.clusters, e.2.ways.change = none) ∧ s.my.cq.length < 16 ∧ copyForm s.atIssue.cp = true ∧
      copyForm t.atIssue.cp = false ∧ MayEnter t 0 0 := by
  unfold NoBody MayEnter; decide +kernel

/-- The registers of a copy of one row of n bytes between two ranges of the TCM, and a core at whose queue head it stands. -/
def copying (src dst n : Nat) : State :=
  let r : CopyRegs :=
    { src := BitVec.ofNat 64 src, dst := BitVec.ofNat 64 dst, shape := [(0, BitVec.ofNat 64 (n * 2 ^ 48))],
      strs := [(0, 0x00FFFFFF00000001)], strd := [(0, 0x00FFFFFF00000001)], fmt := 0x44 }
  one (ready []) { cq := [{ instr := .cpgo 1, started := true, copy := { regs := r } }] }

/-- A copy whose rows are done, with its semaphore 63 at the last value and its status record at the last place of the TCM. -/
def copied : State :=
  one (ready []) { cq := [{ instr := .cpgo 1, started := true, copy := { regs := { sem := BitVec.ofNat 64 (63 * 2 ^ 58 + 0x1EFE0) }, tid := 65535, rowsDone := true } }],
                   sems := [(63, { count := 65534 })] }

theorem witness_CopyEvents :
    (let s := copying 0x1EFFF 0 1
     s.coreStill 0 = false ∧ (Tab.find (s.core 0).holds 2).isSome = false ∧ s.poison = [] ∧
       ∃ m, (s.core 0).cq = [m] ∧ m.started = true ∧ (s.core 0).cmdWaits m = false ∧ m.copy.rowsDone = false ∧ m.prog = 0 ∧ m.copy.late = []) ∧
    (0x1EFFF + 1 ≤ 0x1F000 ∧ 0 + 1 ≤ 0x1EFFF ∧ 0x3FFF < 2 ^ 14) ∧
    copied.coreStill 0 = false ∧ (Tab.find (copied.core 0).holds 2).isSome = false ∧ NoneBlocked copied 0 ∧
      (∃ m, (copied.core 0).cq = [m] ∧ m.started = true ∧ (copied.core 0).cmdWaits m = false ∧ m.copy.rowsDone = true ∧ m.copy.bell = none ∧ m.copy.state = 0 ∧
        m.copy.tid < 65536 ∧ m.copy.regs.sem.toNat / 2 ^ 57 % 2 = 0 ∧ m.copy.regs.sem.toNat / 2 ^ 58 = 63 ∧
        m.copy.regs.sem.toNat / 2 ^ 5 % 2 ^ 43 * 32 ≠ 0 ∧ m.copy.regs.sem.toNat / 2 ^ 5 % 2 ^ 43 * 32 + 32 ≤ 0x1F000) ∧
      ((copied.core 0).sems.get {} 63).count < 65535 := by
  refine ⟨⟨by decide, by decide, by decide, _, rfl, by decide +kernel⟩, by decide, by decide, by decide,
    noneBlocked _ (by decide +kernel) _, ⟨_, rfl, by decide +kernel⟩, by decide⟩

theorem witness_CarveOut :
    (let s : State := { clusters := [(383, { ways := { s := 8, change := some 0 } })] }
     s.io.frz = false ∧ (s.cluster 383).ways.change = some 0 ∧ (s.cluster 383).ways.waits = [] ∧ 0 < (s.cluster 383).ways.s) ∧
    (∀ n ∈ [0, 1],
      let s : State := { cores := [(7, { wbOut := n })], clusters := [(0, { ways := { s := 8, change := some 16 } })] }
      (s.cluster 0).ways.change = some 16 ∧ (s.cluster 0).ways.waits = [] ∧ (s.cluster 0).ways.s < 16 ∧ (∀ l ∈ (s.cluster 0).cc, l.dirty = []) ∧
        ((∀ k ∈ coresOf 0, (s.core k).wbOut = 0) ↔ n = 0)) ∧
    (State.reset.cluster 0).ways.auto = true := by decide +kernel

/-! #### Bells, supersteps, the exchange lane, collectives -/

/-- The fields that `bell` accepts (R332). -/
def bellFields (g : Nat) : Bool :=
  let f := fun (hi lo : Nat) => g / 2 ^ lo % 2 ^ (hi + 1 - lo)
  1 ≤ f 18 16 && f 18 16 ≤ 5 && f 31 20 == 0 && f 63 58 == 0 && 1 ≤ f 49 41 && f 40 32 + f 49 41 ≤ 384

/-- g1 arms a bell for cluster 383 alone, g2 disarms, g3 has a bad scope, g4 names cluster 383, g5 cluster 384. -/
def ringing (b : Bell) : State :=
  one (ready [(1, 0xFFFF + 5 * 2 ^ 16 + 383 * 2 ^ 32 + 2 ^ 41 + 255 * 2 ^ 50), (2, 0), (3, 1 + 6 * 2 ^ 16 + 2 ^ 41), (4, 383 + 7 * 512), (5, 384)])
    { trapvec := 0x20000, bells := [(127, b)] }

theorem witness_BellsAndDone :
    (let s := ringing {}
     NoBody s ∧ Quiet s ∧ CleanCaches s ∧ NoneBlocked s s.cur.core ∧ MayEnter s 0 0) ∧
    (let s := ringing {}
     let g := fun a : R5 => (s.srcG a).toNat
     (g 1 % 2 ^ 16 ≠ 0 ∧ bellFields (g 1) = true) ∧ g 2 % 2 ^ 16 = 0 ∧ (g 3 % 2 ^ 16 ≠ 0 ∧ bellFields (g 3) = false) ∧
       (g 4 / 2 ^ 12 = 0 ∧ g 4 % 512 < 384 ∧ (s.cluster (clusterOf 0)).computePhase = false) ∧ 384 ≤ g 5 % 512 ∧
       (s.my.bells.get {} (127 : BitVec 7).toNat).armed = false) ∧
    (let b := (ringing { armed := true, count := 1 }).my.bells.get {} (127 : BitVec 7).toNat
     b.armed = true ∧ b.count ≠ 0) ∧
    (let b := (ringing { armed := true }).my.bells.get {} (127 : BitVec 7).toNat
     b.armed = true ∧ b.count = 0) ∧
    (let s : State := { cores := [(3071, { bells := [(127, { armed := true, count := 1, mbase := 383, mcnt := 1, cmask := 128 })] })],
                        net := { ifaces := [(383, { ctl := [.done 3071 127 3071 0 0] })] } }
     let v := (s.core 3071).bells.get {} 127
     s.tileStopped (tileOf 3071) = false ∧ NoneBlocked s 3071 ∧ (s.iface (tileOf 3071)).ctl = [.done 3071 127 3071 0 0] ∧ v.armed = true ∧
       v.count ≠ 0 ∧ v.mbase ≤ 3071 / 8 ∧ 3071 / 8 < v.mbase + v.mcnt ∧ v.cmask.testBit (3071 % 8) = true) := by
  unfold NoBody Quiet CleanCaches MayEnter
  refine ⟨⟨by decide, by decide, by decide, noneBlocked _ (by decide +kernel) _, by decide⟩, by decide +kernel, by decide, by decide, by decide,
    noneBlocked _ (by decide +kernel) _, by decide +kernel⟩

/-- A cluster whose one live context waits in `sstep`, with a command that it pushed before the phase; its domain is the cluster alone
(R36, R320). -/
def stepping (mode : Nat) (xp : Bool) : State :=
  { one { run := .blocked .sstep } { xq := [{ instr := .collAg 1 2, stamp := 4 }] } with
    clusters := [(0, { domain := { mode := mode }, phase := { xp := xp, cur := 9, begun := 5 } })] }

theorem witness_Supersteps :
    (Quiet (one (ready [])) ∧ CleanCaches (one (ready []))) ∧
    ∀ e ∈ [(0, false), (1, false), (1, true)],
      let s := stepping e.1 e.2
      s.clusterStill 0 = false ∧ domainOfCluster s 0 = [0] ∧ liveContexts s 0 ≠ [] ∧
        (∀ e ∈ liveContexts s 0, (s.ctx e.1 e.2).run = .blocked .sstep) ∧ (s.cluster 0).domainPend = none ∧
        (s.cluster 0).domain.mode.testBit (s.cluster 0).domain.level = (e.1 == 1) ∧ (s.cluster 0).phase.xp = e.2 ∧ (s.cluster 0).gathers = [] ∧
        (s.cluster 0).table = [] ∧ (∀ k ∈ coresOf 0, ∀ m ∈ (s.core k).xq, m.stamp < (s.cluster 0).phase.begun) ∧ ∀ q ∈ lanePackets s, q.src ≠ 0 ∧ q.dst ≠ 0 := by
  unfold Quiet CleanCaches; decide +kernel

/-- An entry of the slot table, and a core in an exchange phase with the operands of a send (in g1 to g3) and of a request (g1, g5, g4)
that it takes, each of the most bytes. -/
def slotEntry : SlotEntry := { dst := 383, kind := 0, beats := 5, slot := 10 }
def exchanging : State :=
  { one (ready [(1, 0x20000 - 256), (2, 0x3FFFFC), (3, 10 + 256 * 2 ^ 16), (4, 10 + 64 * 2 ^ 16), (5, 0x3FFFFC + 0x3FFFFC * 2 ^ 32)])
      { trapvec := 0x20000, xq := List.replicate 15 {} } with
    clusters := [(0, { domain := { mode := 1 }, phase := { xp := true, cur := 6 }, table := [slotEntry] })] }

theorem witness_ExchangeLane :
    (let s := exchanging
     let c := s.cluster 0
     let f := fun (r : R5) (hi lo : Nat) => (s.srcG r).toNat / 2 ^ lo % 2 ^ (hi + 1 - lo)
     let entry := fun (d b : R5) (n : Nat) => slotEntry ∈ c.table ∧ (∀ x ∈ c.table, x.slot = slotEntry.slot → x = slotEntry) ∧
       slotEntry.kind = 0 ∧ slotEntry.slot = f d 15 0 ∧ slotEntry.taken = false ∧ c.phase.cur + 4 ≤ slotEntry.slot ∧
       32 + n ≤ 64 * slotEntry.beats ∧ (s.srcG 1).toNat % 4 = 0 ∧ n % 4 = 0 ∧ f b 21 0 % 4 = 0 ∧ f b 53 32 % 4 = 0 ∧ (s.srcG 1).toNat + n ≤ 0x20000
     s.cur.core < 3072 ∧ NoBody s ∧ s.my.wb = [] ∧ s.my.ops = [] ∧ s.my.xq.length < 16 ∧ c.domain.mode.testBit c.domain.level = true ∧ c.phase.xp = true ∧
       (f 3 24 16 ≤ 256 ∧ f 3 63 25 = 0 ∧ f 2 63 22 = 0 ∧ entry 3 2 (f 3 24 16)) ∧
       (1 ≤ f 4 22 16 ∧ f 4 22 16 ≤ 64 ∧ f 4 26 24 ≤ 4 ∧ f 4 23 23 = 0 ∧ f 4 63 27 = 0 ∧ f 5 31 22 = 0 ∧ f 5 63 54 = 0 ∧
         f 4 22 16 * (4 * 2 ^ f 4 26 24) ≤ 256 ∧ entry 4 5 (4 * f 4 22 16))) ∧
    (let s := one (ready []) traps
     MayEnter s 0 0 ∧ (s.cluster 0).phase.xp = false) ∧
    (let m : Cmd := { instr := .xsend 3 1 2, vals := [0x1FFF0, 64, 16 * 2 ^ 16 + 10], slot := 10, dst := 2 }
     let s : State := { cores := [(7, { xq := [m] })], clusters := [(0, { phase := { xp := true, cur := 10 } })] }
     s.clusterStill 0 = false ∧ (s.cluster 0).phase.xp = true ∧ s.poison = [] ∧ (∀ j, j ≠ 0 → (s.cluster j).phase.xp = false) ∧
       s.net.failedLinks = [] ∧ s.net.failedRouters = [] ∧ (∀ r, (s.router r).down = 0) ∧ 7 ∈ coresOf 0 ∧
       (∀ j ∈ coresOf 0, j ≠ 7 → (s.core j).xq = []) ∧ (s.core 7).xq = [m] ∧ m.flt = none ∧ ownSendOut s 7 m.stamp = false ∧ m.slot ≤ (s.cluster 0).phase.cur ∧
       Reachable s ∧ (0x1FFF0 : Word).toNat + 16 ≤ 0x20000) ∧
    (let p : LanePkt := { src := 0, dst := 383, request := true, core := 0, ctx := 0, stamp := 0, slot := 10, off := 64, data := [1, 2, 3, 4] }
     let g : Gather := { req := p, values := some [5, 6, 7, 8] }
     let s : State := { clusters := [(383, { phase := { xp := true, cur := 10 }, gathers := [g] })] }
     (s.cluster 383).gathers = [g] ∧ g.values = some [5, 6, 7, 8] ∧ g.req.slot ≤ (s.cluster 383).phase.cur) ∧
    (let p : LanePkt := { src := 0, dst := 383, core := 0, ctx := 0, stamp := 0, slot := 10, off := 8 * 0x40000 - 4, data := [1, 2, 3, 4] }
     let s := fun p : LanePkt => ({ clusters := [(383, { lane := [p], gathers := List.replicate 255 ⟨p, none, 0⟩ })] } : State)
     (s p).tileStopped 383 = false ∧ ((s p).cluster 383).lane = [p] ∧ p.request = false ∧ p.reply = false ∧
       p.off + p.data.length ≤ ((s p).cluster 383).ways.s * 0x40000 ∧ mayLand (s p) p = true ∧ ({ p with data := [] } : LanePkt).data = [] ∧
       mayLand (s { p with reply := true }) { p with reply := true } = true ∧
       (({ p with request := true } : LanePkt).request = true ∧ ((s { p with request := true }).cluster 383).gathers.length < 256) ∧
       ({ p with reply := true } : LanePkt).reply = true ∧ p.data.length % (4 * 2 ^ p.esz) = 0) := by
  unfold NoBody MayEnter
  refine ⟨by decide +kernel, by decide +kernel, ⟨by decide, by decide, by decide, fun j hj => ?_, rfl, rfl, fun r => rfl, by decide, by decide, by decide,
    by decide, by decide, by decide, reachable _ rfl rfl rfl, by decide⟩, by decide +kernel, by decide +kernel⟩
  exact get_all_but _ _ (fun c : Cluster => c.phase.xp = false) 0 rfl (by decide) j hj

/-- A collective of two members, its record at the last 64 bytes of the TCM (R336). -/
def collecting (m : Cmd) (g : List Gathering) : State :=
  { one (ready [(1, 63), (2, 0x1FFC0), (3, 128), (4, 0x1FFC1)]) { trapvec := 0x20000, xq := [m], sems := [(63, { count := 65534 })] } with
    mem := memWrite (memWrite [] (tcmBase 0 + 0x1FFC0 + 0x18) (toBytes 4 2)) (tcmBase 0 + 0x1FFC0 + 0x20) (toBytes 8 0x1FFF8), gatherings := g }
/-- A member of a gathering of two. -/
def member (core rank stage : Nat) : Coll :=
  { core := core, ctx := 0, stamp := 0, part := 0, src := 0x1EFFC, dst := 0x1EFF8, bytes := 4, nmem := 2, rank := rank, group := [], tag := 0,
    reserved := false, instr := .collAg 1 2, stage := stage, data := [1, 2, 3, 4] }

theorem witness_Collectives :
    (let s := collecting {} []
     NoBody s ∧ (s.cluster (clusterOf s.cur.core)).computePhase = false ∧ s.my.xq.length < 16 ∧ MayEnter s 0 0 ∧ (s.srcG 1).toNat < 128 ∧
       ((s.srcG 2).toNat % 32 = 0 ∧ 128 ≤ (s.srcG 3).toNat) ∧ (s.srcG 4).toNat % 32 ≠ 0) ∧
    (let m : Cmd := { instr := .collAg 1 2, vals := [63, 0x1FFC0] }
     let s := collecting m []
     let f := fun (o n : Nat) => s.readN (tcmBase 0 + 0x1FFC0 + o) n
     s.coreStill 0 = false ∧ (Tab.find (s.core 0).holds 3).isSome = false ∧ (s.core 0).xq = m :: [] ∧ s.poison = [] ∧ s.net = {} ∧
       m.started = false ∧ sendsOut s 0 m.stamp = false ∧ (s.core 0).cmdReadWaits m = false ∧ s.gatherings = [] ∧ 2 ≤ f 0x18 4 ∧ f 0x18 4 ≤ 384 ∧ f 0x20 8 + 4 * f 0x18 4 ≤ 0x20000) ∧
    ∀ n ∈ [0, 1, 2],
      let m : Cmd := { instr := .collAg 1 2, vals := [63, 0x1FFC0], started := true }
      let c := member 0 0 n
      let e := member 8 1 2
      let s := collecting m [{ part := 0, tag := 0, size := 2, members := [c, e], closed := true }]
      (s.core 0).xq = m :: [] ∧ c.core = 0 ∧ c.stamp = m.stamp ∧ e.core ≠ 0 ∧ c.nmem = 2 ∧ c.rank = 0 ∧ e.rank = 1 ∧ c.instr = .collAg 1 2 ∧
        c.stage = n ∧ 2 ≤ e.stage ∧ c.data.length = c.bytes ∧ e.data.length = c.bytes ∧ c.src + c.bytes ≤ 0x1F000 ∧
        c.dst + 2 * c.bytes ≤ 0x1F000 ∧ Reachable s ∧ (s.core 0).cmdWaits m = false ∧ NoneBlocked s 0 ∧ (63 : Word).toNat < 64 ∧ ((s.core 0).sems.get {} (63 : Word).toNat).count < 65535 := by
  unfold NoBody MayEnter
  refine ⟨by decide +kernel, by decide +kernel, fun n _ => ⟨rfl, rfl, rfl, by decide, rfl, rfl, rfl, rfl, rfl, by decide, rfl, rfl, Nat.le_of_eq rfl,
    Nat.le_of_eq rfl, reachable _ rfl rfl rfl, rfl, noneBlocked _ (by intro e he f hf; simp only [collecting, one, List.mem_singleton] at he; subst he; simp only [List.mem_singleton] at hf; subst hf; rfl) _,
    by decide, ?_⟩⟩
  simp [collecting, one, State.core, Tab.get, Tab.find]

/-! #### The Gleaner and the open plane -/

/-- g1 to g3 declare the largest region, with its map at the end of scratch and its private range up to the shadow stacks; g4 gives a
misaligned private range; g5 the most iterations, g6 none; g7 and g8 the last cell and one beyond. -/
def gleans : Ctx :=
  ready [(1, 0x1000000), (2, 4194304 + 0x180000 * 2 ^ 32), (3, 0x1EFE0 + 0x20 * 2 ^ 32), (4, 1), (5, 2 ^ 32 - 1), (6, 2 ^ 32), (7, 4194303), (8, 4194304)]
def region : Gleaner := { own := 0, decl := true, base := 0x1000000, ncell := 4194304, map := 0x180000, pbase := 0x1EFE0, plen := 0x20 }

theorem witness_GleanerLoop :
    (let s := one gleans traps
     s.my.gl.run = false ∧ s.my.gl.own = 15 ∧ glFits 0 { s.my.gl with own := 0, decl := true, base := (s.srcG 1).toNat, ncell := 4194304, map := 0x180000, pbase := 0x1EFE0, plen := 0x20 } (s.srcG 3) (s.srcG 2) = true ∧
       canonical (s.srcG 1).toNat = true ∧ mapBeyond s 0 region = false ∧ MayEnter s 0 0 ∧
       glFits 0 { s.my.gl with own := 0, decl := true, base := (s.srcG 1).toNat, ncell := 4194304, map := 0x180000, pbase := 1 } (s.srcG 4) (s.srcG 2) = false) ∧
    (let s := one gleans { gl := region }
     s.me.ls.act = false ∧ s.my.gl.run = false ∧ s.my.gl.own = 0 ∧ s.my.gl.decl = true ∧ mapBeyond s 0 s.my.gl = false ∧
       (s.srcG 5).toNat % 2 ^ 32 ≠ 0 ∧ (s.srcG 6).toNat % 2 ^ 32 = 0) ∧
    (let s := one gleans { trapvec := 0x20000, gl := { region with own := 10, run := true } }
     s.my.gl.run = true ∧ s.my.gl.own ≠ 15 ∧ s.my.gl.own ≠ 0 ∧ MayEnter s 0 0) := by
  unfold MayEnter; decide +kernel

/-- An iteration of a loop whose body is at the program counter, with every map bit of the last byte set or none. -/
def iterating (foot : Bool) (map : Byte) (idx skips : Nat) : State :=
  { one { gleans with pc := 3 } { trapvec := 0x20000, gl := { region with run := true, foot := foot, idx := idx, start := 1, last := 3, skips := skips } } with
    mem := memWrite [] (scratchBase 0 + 0x1FFFFF) [map] }

theorem witness_GleanerIterations :
    let bit := fun (s : State) (i : Nat) => (memGet s.mem (scratchBase 0 + s.my.gl.map + i / 8)).getLsbD (i % 8)
    (let s := iterating false 0 0 0
     Quiet s ∧ s.my.gl.run = true ∧ s.my.gl.own = s.cur.ctx ∧ s.my.gl.foot = false ∧ (s.atIssue.readG ((7 : R5).toNat + 0)).toNat < s.my.gl.ncell ∧
       bit s 4194303 = false) ∧
    (let s := iterating false 0xFF 1 (2 ^ 32 - 2)
     bit s 4194303 = true ∧ s.my.gl.skips < 2 ^ 32 - 1 ∧ s.my.gl.idx ≠ 0) ∧
    (let s := iterating true 0 0 0
     s.my.gl.foot = true ∧ s.my.gl.ncell ≤ (s.atIssue.readG ((8 : R5).toNat + 0)).toNat ∧ MayEnter s 0 0 ∧ s.cur.pc = s.my.gl.last ∧
       ({ s with cur := {} } : State).cur.pc ≠ s.my.gl.last) ∧
    (let s := inBody
     let g := s.my.gl
     s.me.sup = true ∧ s.me.ls.act = false ∧ MayEnter s 0 0 ∧ s.cur.glAt = some g ∧ g.run = true ∧ g.suspended = false ∧ g.own = s.cur.ctx ∧
       (s.cur.pc - g.start).toNat ≤ (g.last - g.start).toNat ∧ (Instr.glnext ≠ .nop ∧ s.cur.pc = g.last) ∧
       ({ s with cur := { s.cur with pc := 8191 } } : State).cur.pc ≠ g.last) := by
  unfold Quiet MayEnter; decide +kernel

/-- A message from tile 0 to tile 1, the router beside it. -/
def letter (b : Body) : Msg := { src := 0, dst := 1, cls := .request, body := b }
def sentAccess : Access := { kind := .read, pa := 0x10000000000, n := 8, core := 0, ctx := 0, stamp := 0, asker := .op 0 0 0 }

theorem witness_OpenPlane :
    let m := letter (.access sentAccess)
    (let m : Msg := { m with seq := 63 }
     let s : State := { net := { ifaces := [(0, { out := [m] })], pairs := [(2, { next := 64 })],
                                 routers := [(0, { pkts := [⟨m, 8, 0, false⟩, ⟨{ m with cls := .reply }, 8, 1, false⟩] })] } }
     s.io.frz = false ∧ (s.router 0).spill = [] ∧ (s.iface 0).out = [m] ∧ s.tileHalting 0 = false ∧ s.tileHalting 1 = false ∧
       m.seq < (s.net.pairs.get {} ((0 * 520 + 1) * 2)).acked + 64 ∧
       hasRoom (s.router 0) 8 m.cls = true) ∧
    (let q : Pkt := { msg := m, port := 8, rail := 1 }
     let s : State := { net := { routers := [(0, { pkts := [q] })] } }
     s.net.failedLinks = [] ∧ s.net.failedRouters = [] ∧ s.net.knownLinks = [] ∧ s.net.knownRouters = [] ∧ (∀ t, (s.router t).down = 0) ∧
       (s.router 0).pkts = [q] ∧ (∃ p, neighbour 0 p = some 1) ∧ q.msg.dst = 1 ∧ (s.router 1).pkts = [] ∧ q.suspect = false) ∧
    (let q : Pkt := { msg := m, port := 3, rail := 1, suspect := true }
     let s : State := { net := { routers := [(1, { pkts := [q] })] } }
     (s.router 1).pkts = [q] ∧ q.msg.dst = 1 ∧ s.net.byway = none ∧ (∀ j, j ≠ 1 → (s.router j).pkts = []) ∧ (s.router q.msg.dst).reserved = none) ∧
    (let s : State := { net := { byway := some (519, m), ifaces := [(1, { inbox := [{ m with seq := 5 }] })], pairs := [(2, { deliver := 5, next := 6 })] } }
     s.net.byway = some (519, m) ∧ bywayReaches s m.dst 520 [] 519 = true ∧ (s.router 1).reserved = none ∧ (s.iface 1).inbox = [{ m with seq := 5 }] ∧ s.tileStopped 0 = false ∧
       s.tileStopped 1 = false ∧ ({ m with seq := 5 } : Msg).seq = (s.net.pairs.get {} ((0 * 520 + 1) * 2)).deliver ∧
       (s.net.pairs.get {} ((0 * 520 + 1) * 2)).lost = []) ∧
    (let a := { letter (.ack 0 5) with src := 1, dst := 0 }
     let s : State := { net := { ifaces := [(0, { acks := [a] })] } }
     (s.iface 0).acks = [a] ∧ a.body = .ack 0 5 ∧ (s.net.pairs.get {} ((0 * 520 + 1) * 2)).early = [] ∧ s.reeve.recs = []) ∧
    (let s : State := { net := { routers := [(0, { runs := [(1, 15)], retry := 2 ^ 24 - 1 })] } }
     linkLive s 0 1 = true ∧ 16 ≤ (s.router 0).runs.get 0 1 + 1 ∧ linkLive State.reset 0 1 = true ∧ (State.reset.router 0).runs.get 0 1 + 1 < 16) ∧
    519 ∉ State.reset.net.failedRouters := by
  refine ⟨by decide +kernel, ⟨rfl, rfl, rfl, rfl, fun t => get_all _ _ (fun r : Router => r.down = 0) rfl (by decide) t, rfl, ⟨1, by decide⟩, rfl, rfl, rfl⟩,
    ⟨rfl, rfl, rfl, fun j hj => get_all_but _ _ (fun r : Router => r.pkts = []) 1 rfl (by decide) j hj, rfl⟩, by decide +kernel, by decide +kernel,
    by decide +kernel, by decide⟩

/-! #### Tasks -/

/-- A launch record of one group (R29 to R31): its header without the kind, CODE, CODELEN, ENTRY, ARGS, ARGLEN, STATUS, EOFF and CORES. -/
def launch (head code codelen entry args arglen status eoff cores : Nat) : List Byte :=
  toBytes 8 head ++ toBytes 8 code ++ toBytes 4 codelen ++ toBytes 4 entry ++ toBytes 8 args ++ toBytes 4 arglen ++ toBytes 4 0 ++ toBytes 8 0 ++
    toBytes 8 status ++ toBytes 8 0 ++ toBytes 4 (cores + eoff * 2 ^ 16) ++ List.replicate 60 0
/-- Core 0 with a launch record in the last 128 bytes of its TCM; its task has ticket 7. -/
def spawning (kind : Nat) : State :=
  { one (super [(1, 0x1FF80), (2, 2 ^ 32 - 1), (3, 2 ^ 63), (4, 0x1FF81), (5, 2 ^ 32), (6, 2 ^ 48 - 1), (7, 2 ^ 48)]) { trapvec := 0x20000, task := some 7 } with
    mem := memWrite [] (tcmBase 0 + 0x1FF80) (launch kind 0x400000 64 8 0x410000 16 0x420000 1 1),
    reeve := { recs := [{ ticket := 7, die := 0, age := 0, part := 0, kind := 0 }] } }

theorem witness_TaskInstructions :
    (∀ n ∈ [0, 1],
      let s := spawning n
      let bs := s.read (tcmBase 0 + 0x1FF80) 128
      let r := parseRecord bs (dieOf 0) (s.cluster 0).part false (some 0)
      Quiet s ∧ CleanCaches s ∧ (s.srcG 1).toNat % 32 = 0 ∧ (s.srcG 1).toNat + 128 ≤ 0x20000 ∧ (s.srcG 2).toNat < 2 ^ 32 ∧ (s.srcG 3).toNat = 2 ^ 63 ∧
        s.poison = [] ∧ s.net = {} ∧ Settled s ∧ recordOk bs = true ∧ r.kind = n ∧ recFits s r = true ∧ poolTakes s r.die = true ∧
        okIs (recAddr s (some 0) true r.status) (scratchBase 0 + 0x20000) = true) ∧
    (let s := spawning 0
     MayEnter s 0 0 ∧ (s.srcG 4).toNat % 32 ≠ 0 ∧ ¬ ((s.srcG 5).toNat = 2 ^ 63 ∨ (s.srcG 5).toNat < 2 ^ 32) ∧
       (∃ r, s.my.task = some 7 ∧ s.rec? 7 = some r) ∧ (s.srcG 6).toNat / 2 ^ 48 % 2 ^ 15 = 0 ∧ (s.srcG 7).toNat / 2 ^ 48 % 2 ^ 15 ≠ 0 ∧
       (one (ready [])).my.task = none) ∧
    MayEnter { cur := { core := 3072 }, cores := [(3072, traps)] } 3072 0 := by
  unfold Quiet CleanCaches Settled MayEnter
  exact ⟨by decide +kernel, ⟨by decide, by decide, by decide, ⟨_, rfl, rfl⟩, by decide, by decide, rfl⟩, by decide⟩

/-- A machine whose one task, of partition 0, may be placed; every cluster but 383 is in partition 1. -/
def placing (r : TaskRec) : State :=
  { clusters := (List.range 383).map fun c => (c, { part := 1 }), reeve := { recs := [r] } }
/-- A queued record of one core whose image, arguments and status record lie in scratch. -/
def taskOne : TaskRec :=
  { ticket := 7, die := 3, age := 0, part := 0, kind := 0, code := 0x400020, codelen := 65536, entry := 8, args := 0x5FFFF0, arglen := 16, status := 0x400000,
    groups := [(1, 1)], cluster := some 383 }
/-- A queued record of the Granary 127. -/
def taskGran : TaskRec :=
  { ticket := 7, die := 3, age := 0, part := 0, kind := 2, gran := 127, code := 0x10000000020, codelen := 65536, args := 0x15FFFFFFFF0, arglen := 16,
    status := 0x10000000000, groups := [(0, 1)] }
/-- A host queue with one record in device memory. -/
def queued : State :=
  { io := { ready := true }, reeve := { queues := [(0, { base := 0x10000001000, en := true, head := 1, size := 2, tail := 0 })] },
    mem := memWrite (memWrite [] 0x10000001008 (toBytes 8 0x10000002000)) 0x10000002000 (launch 0 0x400000 64 8 0x410000 16 0x420000 1 1) }

theorem witness_TaskPlacement :
    (let s := queued
     let q := s.reeve.queues.get {} 0
     let bs := s.read 0x10000002000 128
     let x := parseRecord bs q.die q.part (q.part == 0) (partClusters s q.part).head?
     s.io.frz = false ∧ s.poison = [] ∧ s.net = {} ∧ s.io.ready = true ∧ q.en = true ∧ 2 ≤ q.size ∧ q.head ≠ q.tail ∧
       (s.reeve.dies.get {} q.die).lw < poolFree s q.die ∧ s.readN (q.base.toNat + 8 * q.head) 8 = 0x10000002000 ∧ recordOk bs = true ∧ x.kind ≠ 2 ∧
       recFits s x = true ∧ okIs (recAddr s (recTables s x) true x.status) (scratchBase 0 + 0x20000) = true) ∧
    (∀ a ∈ [none, some 0x10000000000],
      let r : TaskRec := { taskOne with state := .spilled, spillAt := a }
      (placing r).reeve.recs = [r] ∧ r.state = .spilled) ∧ spillHolds (placing { taskOne with state := .spilled }) { taskOne with state := .spilled } = true ∧
    (let r := taskOne
     let s := placing r
     s.halting r.part = false ∧ partClusters s r.part = [383] ∧ r.state = .queued ∧
       (∀ k ∈ coresOf 383, (s.ctx k 0).run = .free ∧ (s.core k).failed = false ∧ (s.core k).lastPart = none) ∧
       (∀ v ∈ [(r.code, r.codelen), (r.args, r.arglen), (r.status, 32)], 0x400000 ≤ v.1 ∧ v.1 - 0x400000 + v.2 ≤ (s.cluster 383).ways.s * 0x40000) ∧
       (s.cluster 383).ways.s ≤ 16 ∧ r.status % 32 = 0 ∧ r.codelen ≤ 65536 ∧ r.status + 32 ≤ r.code) ∧
    (let r := taskGran
     let s := placing r
     (s.ctx (3072 + 127) 0).run = .free ∧ (s.core (3072 + 127)).failed = false ∧ (s.core (3072 + 127)).lastPart = none ∧
       (∀ v ∈ [(r.code, r.codelen), (r.args, r.arglen), (r.status, 32)], 0x10000000000 ≤ v.1 ∧ v.1 + v.2 ≤ 0x16000000000) ∧ r.codelen ≤ 65536 ∧
       r.status + 32 ≤ r.code) ∧
    (let r : TaskRec := { taskOne with hasdl := true, deadline := 2 ^ 48 - 1, state := .running }
     let s := { placing r with tower := 2 ^ 48 }
     r.hasdl = true ∧ r.late = false ∧ r.given = false ∧ (BitVec.ofNat 48 r.deadline - s.tower.setWidth 48).toInt < 0 ∧ s.reeve.late.size = 0 ∧ r.status % 32 = 0 ∧
       okIs (recAddr s (recTables s r) true (r.status + 4)) (scratchBase 383 + 4) = true) := by
  decide +kernel

/-- A task of one core whose `tend` has issued, after a number of the steps of R27. -/
def ending (n : Nat) : State :=
  { cores := [(3071, { ctxs := [(0, { run := .blocked .tend, exit := 5, tendStep := n })], task := some 7 })],
    reeve := { recs := [{ taskOne with cores := [3071], state := .running }] } }

theorem witness_TaskEnd :
    (∀ n ∈ [1, 2, 3, 4],
      let s := ending n
      let x := s.core 3071
      ∃ r, s.reeve.recs = [r] ∧ s.coreStill 3071 = false ∧ (s.ctx 3071 0).run = .blocked .tend ∧ (s.ctx 3071 0).reports = [] ∧ x.task = some r.ticket ∧
        r.kind = 0 ∧ r.consumer = none ∧ r.hasdl = false ∧ r.compl = 0 ∧ x.vq = [] ∧ x.mq = [] ∧ x.cq = [] ∧ x.xq = [] ∧ x.wb = [] ∧ x.ops = [] ∧
        x.fetches = [] ∧ x.wbOut = 0 ∧ (∀ l ∈ x.l1, l.dirty = []) ∧ (∀ l ∈ (s.cluster (clusterOf 3071)).cc, l.dirty = []) ∧
        (∀ h, h ≠ 0 → (s.ctx 3071 h).run = .free) ∧ (s.ctx 3071 0).tendStep = n ∧ r.status % 32 = 0 ∧
        okIs (recAddr s (recTables s r) true r.status) (scratchBase 383) = true) ∧
    (let s : State := { one { run := .blocked (.sacq 63) } with reeve := { census := { base := 0x15FFFFFFFC0, size := 4, tail := 2 } } }
     s.io.frz = false ∧ domainOfCluster s 0 = [0] ∧ (s.cluster 0).census = false ∧ domainBusy s [0] = false ∧ s.net = {} ∧
       liveContexts s 0 = [(0, 0)] ∧ (s.ctx 0 0).run = .blocked (.sacq 63) ∧ s.reeve.census.tail + 1 + 1 ≤ s.reeve.census.size ∧
       s.reeve.census.base.toNat + s.reeve.census.tail * 16 + 16 * (1 + 1) ≤ 0x16000000000) := by
  refine ⟨fun n hn => ⟨_, rfl, ?_⟩, by decide +kernel⟩
  have h : ∀ h, h ≠ 0 → ((ending n).ctx 3071 h).run = .free := by
    intro h hh
    simp [State.ctx, State.core, ending, Tab.get, Tab.find, Ne.symm hh]
  simp only [List.mem_cons, List.not_mem_nil, or_false] at hn
  rcases hn with e | e | e | e <;> subst e <;>
    exact ⟨by decide +kernel, by decide, by decide, by decide, by decide, by decide, by decide, by decide, rfl, rfl, rfl, rfl, rfl, rfl, rfl, rfl,
      by decide, by decide +kernel, h, rfl, by decide, by decide +kernel⟩

/-! #### Register writes, saving, the Curfew, the outside -/

theorem witness_RegisterWrites :
    State.reset.io.frz = false ∧ State.reset.reeve.recs = [] ∧ (State.reset.cluster 0).domain.bulk = false ∧ ({ level := 1, mode := 2 } : Domain).bulk = true ∧ (State.reset.cluster 0).phase.xp = false ∧
      (exchanging.cluster 0).phase.xp = true ∧
      (∀ n ∈ [1, 64], 1 ≤ (BitVec.ofNat 64 (n * 2 ^ 13)).toNat / 2 ^ 13 % 2 ^ 7 ∧ (BitVec.ofNat 64 (n * 2 ^ 13)).toNat / 2 ^ 13 % 2 ^ 7 ≤ 64) ∧
      (2 ^ 63 : Word).toNat / 2 ^ 63 % 2 = 1 ∧ (0 : Word).toNat / 2 ^ 63 % 2 = 0 ∧ State.reset.io.peerMsgs = [] ∧
      (State.reset.io.ev.get {} 0).pend = false ∧ (({ ev := [(0, { host := true })] } : IoDie).ev.get {} 0).host = true := by decide +kernel

/-- g1 a size of an image, g2 an aligned area, g3 to g5 the target core 24 (cluster 3), a reserved bit set, and core 0; g6 a size too small; g7
an area in the TCM whose first word is a header. -/
def saving : Ctx := super [(1, 327680), (2, 0x400000), (3, 3), (4, 2 ^ 13), (5, 0), (6, 327679), (7, 0x1FF00)]

theorem witness_SavesAndTranslations :
    (let s := one saving traps
     s.me.sup = true ∧ Quiet s ∧ CleanCaches s ∧ canonical (s.srcG 2).toNat = true ∧ s.srcG 0 = 0 ∧ MayEnter s 0 0) ∧
    (let s := one saving traps
     let f := fun (a : R5) (hi lo : Nat) => (s.srcG a).toNat / 2 ^ lo % 2 ^ (hi + 1 - lo)
     let form := fun a : R5 => f a 8 0 < 384 ∧ f a 63 13 = 0 ∧ (s.srcG 2).toNat % 256 = 0
     form 3 ∧ liveUnhalted (s.core 24) = false ∧ (s.cluster 3).engine = .idle ∧ (takeImage s 24 false).size ≤ (s.srcG 1).toNat ∧
       (s.srcG 6).toNat < (takeImage s 24 false).size ∧ (form 5 ∧ liveUnhalted (s.core 0) = true) ∧ ¬ form 4) ∧
    (let e : Engine := .paused 24 false 0x400000 0x300 7
     let s : State := { one saving traps with clusters := [(3, { engine := e })] }
     liveUnhalted (s.core 24) = false ∧ (s.cluster 3).engine = e ∧ s.srcG 1 ≠ 0) ∧
    (let h := fun v : Nat => ({ one saving traps with mem := memWrite [] (tcmBase 0 + 0x1FF00) (toBytes 8 v) } : State)
     let read := fun s : State => s.readN (tcmBase 0 + (s.srcG 7).toNat) 8
     (∀ e ∈ ((h 0).core 24).ctxs, e.2.run = .free) ∧ (h 0).poison = [] ∧ (h 0).net = {} ∧ 327680 ≤ ((h 0).srcG 1).toNat ∧
       ((h 0).srcG 7).toNat % 256 = 0 ∧ ((h 0).srcG 7).toNat + 8 ≤ 0x20000 ∧ ((h 0).srcG 3).getLsbD 12 = false ∧
       (read (h (2 ^ 63 + 327680))).testBit 63 = true ∧ read (h (2 ^ 63 + 327680)) % 2 ^ 32 ≤ ((h 0).srcG 1).toNat ∧ (read (h 327680)).testBit 63 = false) ∧
    (let e : TlbInv := { core := 0, ctx := 0, stamp := 0, scope := .clu, lo := 0x1000000, hi := 0x1010000, all := false, sem := 63 }
     let s : State := { one saving with clusters := [(0, { tlbinvs := [e] })] }
     s.io.frz = false ∧ (s.cluster 0).tlbinvs = [e] ∧ e.phase = 0 ∧ e.scope = .clu ∧ e.core < 3072 ∧ clusterOf e.core = 0) ∧
    (let e : TlbInv := { core := 0, ctx := 0, stamp := 0, scope := .clu, lo := 0x1000000, hi := 0x1010000, all := false, sem := 63, phase := 1 }
     let s : State := { one saving with clusters := [(0, { tlbinvs := [e] })] }
     e.phase = 1 ∧ tlbQuiet s e 0 = true) ∧
    (let e : TlbInv := { core := 0, ctx := 0, stamp := 0, scope := .clu, lo := 0x1000000, hi := 0x1010000, all := false, sem := 63, phase := 2 }
     let s : State := { one saving { sems := [(63, { count := 65534 })] } with clusters := [(0, { tlbinvs := [e] })] }
     e.phase = 2 ∧ (∀ j ∈ tlbScope s e.core e.scope, ∀ k ∈ coresOf j, (s.core k).wbOut = 0) ∧ NoneBlocked s e.core ∧
       ((s.core e.core).sems.get {} e.sem).count < 65535) ∧
    (let im := takeImage (one saving) 24 false
     let o : Op := { instr := .save 1 2 3, vals := [327680, 0x400000, 3] }
     let s : State := { one saving { ops := [(0, o)] } with clusters := [(3, { engine := .busy 0 0 0x100 im.id })], images := [im] }
     (s.cluster 3).engine = .busy 0 0 0x100 im.id ∧ (s.core 0).ops = [(0, o)] ∧ o.instr = .save 1 2 3 ∧ s.images = [im] ∧ im.cluster = none ∧
       s.net = {} ∧ (s.cluster (clusterOf 0)).ways.s ≤ 16 ∧ 0x400000 - 0x400000 + 327680 ≤ (s.cluster (clusterOf 0)).ways.s * 0x40000) := by
  unfold Quiet CleanCaches MayEnter
  refine ⟨by decide +kernel, by decide +kernel, by decide +kernel, by decide +kernel, by decide +kernel, by decide +kernel,
    ⟨rfl, by decide +kernel, noneBlocked _ (by decide +kernel) _, by decide⟩, ?_⟩
  exact ⟨rfl, rfl, rfl, rfl, rfl, rfl, by decide, by decide⟩

theorem witness_Curfews :
    (let s := one (super [(1, 63), (2, 0), (3, 63 + 256), (4, 63 + 64)]) traps
     let f := fun (r : R5) (hi lo : Nat) => (s.srcG r).toNat / 2 ^ lo % 2 ^ (hi + 1 - lo)
     let t : State := { s with clusters := [(383, { part := 63 })] }
     let good := fun (s : State) (d b : R5) => f d 7 6 = 0 ∧ f d 63 10 = 0 ∧ partClusters s (f d 5 0) ≠ [] ∧ f d 9 8 ≤ 1 ∧ f b 11 0 = 0 ∧
       (f d 5 0 ∈ s.io.stopped ↔ f d 9 8 = 1) ∧ ∀ c ∈ s.io.curfews, c.part ≠ f d 5 0
     s.me.sup = true ∧ good t 1 2 ∧ good { t with io := { stopped := [63] } } 3 2 ∧ ¬ good t 4 2 ∧ MayEnter s 0 0) ∧
    (let c : Curfew := { part := 0, resume := false, time := 9, area := 0x10000000000 }
     let s : State := { one (ready []) with tower := 9, io := { curfews := [c] } }
     s.io.frz = false ∧ s.io.curfews = [c] ∧ c.time ≤ s.tower.toNat ∧ unitsDone s c.part = true ∧
       (∀ k, (∀ m ∈ (s.core k).vq, m.started = false) ∧ ∀ m ∈ (s.core k).mq, m.mill.steps = 0) ∧ s.net.routers = [] ∧ s.net.pairs = [] ∧
       s.net.ifaces = []) ∧
    (let c : Curfew := { part := 0, resume := true, time := 9, area := 0x10000000000, loaded := true }
     let s : State := { one { run := .halted .ready } with tower := 9, io := { curfews := [c], stopped := [0] } }
     s.io.curfews = [c] ∧ c.time ≤ s.tower.toNat ∧ s.netImages = [] ∧ s.net.routers = [] ∧
       ∀ k x w, (s.ctx k x).run ≠ .blocked w ∧ (s.ctx k x).run ≠ .halted (.blocked w)) := by
  unfold MayEnter
  exact ⟨by decide +kernel, ⟨by decide, by decide, by decide, by decide +kernel,
      fun k => get_all _ _ (fun x : Core => (∀ m ∈ x.vq, m.started = false) ∧ ∀ m ∈ x.mq, m.mill.steps = 0) (by decide) (by decide) k, rfl, rfl, rfl⟩,
    by decide, by decide, rfl, rfl, fun k x w => noneHeld _ (by decide) k x w⟩

theorem witness_HostAndPeers :
    (let s : State := { io := { ready := true, peers := [(15, { en := true, port := 2 })], ports := [(1, { up := true })] } }
     s.io.frz = false ∧ s.io.ready = true ∧ s.poison = [] ∧ s.net = {} ∧ (384 * 2 ^ 30 - 512) + 512 ≤ 384 * 2 ^ 30 ∧
       (384 * 2 ^ 30 - 8) % 8 = 0 ∧ (384 * 2 ^ 30 - 8) + 8 ≤ 384 * 2 ^ 30 ∧ (s.io.peers.get {} 15).en = true ∧
       ((s.io.peers.get {} 15).port ≠ 0 ∧ (s.io.ports.get {} 1).up = true) ∧ s.io.peerAns = [] ∧ (∀ n ∈ [0, 1], (s.io.ports.get {} n).link ≠ true) ∧ ([1] : List Byte).length ≤ 9216) ∧
    (∀ t, ansClosed { io := { ready := true } } t 15 = false) ∧
    (∀ n ∈ [15, 16],
      let a : PeerAns := { tag := 9, peer := 15, src := 0, seq := 63, tries := n }
      let s : State := { io := { ready := true, peerAns := [a] } }
      s.io.peerMsgs = [] ∧ s.io.peerAns = [a] ∧ (n < 16 ↔ n = 15)) ∧
    ∀ t ∈ [0, 15, 16],
      let o : Outer := { tag := 9, back := 512, access := { kind := .read, pa := 0x2F00000000040, n := 8, core := 0, ctx := 0, stamp := 0, asker := .op 0 0 0 }, tries := t }
      let s : State := { io := { ready := true, pcie := [o], peerMsgs := [o] } }
      tileOf o.access.core ≠ o.back ∧ o.access.asker ≠ .none ∧ (∀ k, o.access.asker ≠ .wback k) ∧ s.io.pcie = [o] ∧ s.io.peerMsgs = [o] ∧
        o.access.kind = .read ∧ o.acked = false ∧ (List.replicate 8 (5 : Byte)).length = o.access.n ∧ (o.access.pa - 0x2000000000000) / 2 ^ 44 = 15 ∧ (o.tries < 16 ∨ 16 ≤ o.tries) := by
  refine ⟨by decide, fun _ => rfl, by decide, fun t _ => ⟨by show 0 / 8 ≠ 512; decide, nofun, nofun, rfl, rfl, rfl, rfl, rfl,
    by show (0x2F00000000040 - 0x2000000000000) / 2 ^ 44 = 15; decide, Nat.lt_or_ge t 16⟩⟩

/-- R442: an image of the highest version passes the fused minimum, whatever it is; one without a signature is no good image. -/
theorem witness_DeviceEvents_boot :
    let good := fun (i : ImageInput) => i.signed = true ∧ i.keyHeld = true ∧ Config.minVersion.toNat ≤ i.version.toNat
    good ⟨true, true, 0xFFFFFFFF, 0⟩ ∧ ¬ good ⟨false, true, 0xFFFFFFFF, 1⟩ :=
  ⟨⟨rfl, rfl, Nat.le_of_lt_succ Config.minVersion.isLt⟩, nofun⟩

theorem witness_DeviceEvents :
    (State.reset.core 3071).task = none ∧ State.reset.io.frz = false ∧ (0x15FFFFFFFFF < 0x16000000000) ∧
      (let s : State := { io := { attGo := true, goAddr := 0x15FFFFFFEC0 } }
       s.io.attGo = true ∧ s.io.frz = false ∧ s.net = {} ∧ 0x10000000000 ≤ s.io.goAddr.toNat ∧ s.io.goAddr.toNat + 320 ≤ 0x16000000000) ∧
      (State.reset.cluster 383).sag = false ∧ (({ clusters := [(383, { sag := true })] } : State).cluster 383).sag = true ∧
      State.reset.io.plimLimit < 2601 ∧ 2600 ≤ State.reset.io.plimLimit ∧ State.reset.io.tapen = false ∧
      (let s : State := { io := { tapen := true, frz := true } }
       s.io.tapen = true ∧ s.io.frz = true) := by decide

/-! ### Single steps, with results worked out from the rules -/

/-- A step answers a next state of which a check holds. -/
def stepped (s : State) (p : State → Bool) : Bool :=
  match step s with
  | .next t => p t
  | _ => false
/-- One context with registers. -/
def ctx0 (l : List (Nat × Nat)) (y : Core := {}) : State :=
  { cur := {}, cores := [(0, { y with ctxs := [(0, { run := .ready, g := l.map fun e => (e.1, BitVec.ofNat 64 e.2) })] })] }
/-- A cluster whose core 0 has a vector instruction on lane group 0, all lanes governed, with values in v1 to v3. -/
def vec (i : Instr) (x y z : Nat) (rm : Rm := .rne) : State :=
  { cores := [(0, { ctxs := [(0, { v := [(1, BitVec.ofNat 512 x), (2, BitVec.ofNat 512 y), (3, BitVec.ofNat 512 z)] })],
                    vq := [{ instr := i, started := true, pred := BitVec.allOnes 64, mill := { rm := rm } }] })] }
/-- The low 32 bits of v3 and the flags, after a vector instruction completes. -/
def lane0 (t : State) : Nat × Flags := (((t.ctx 0 0).readV 3).toNat % 2 ^ 32, (t.core 0).mstat.fl)

/-- R96, R97: i32 wraps and extends its sign; n32 extends with zeros. -/
theorem test_add_wraps :
    (after (.add 3 1 2 .i32) (ctx0 [(1, 0x7FFFFFFF), (2, 1)]) (fun t => t.me.readG 3 == 0xFFFFFFFF80000000) &&
      after (.add 3 1 2 .n32) (ctx0 [(1, 0x7FFFFFFF), (2, 1)]) (fun t => t.me.readG 3 == 0x80000000)) = true := by decide +kernel

/-- R98: the decided cases of division. -/
theorem test_division :
    (after (.div 3 1 2 .i64) (ctx0 [(1, 2 ^ 63), (2, 2 ^ 64 - 1)]) (fun t => t.me.readG 3 == 0x8000000000000000) &&
      after (.rem 3 1 2 .i64) (ctx0 [(1, 2 ^ 63), (2, 2 ^ 64 - 1)]) (fun t => t.me.readG 3 == 0) &&
      after (.div 3 1 0 .n32) (ctx0 [(1, 9)]) (fun t => t.me.readG 3 == 0xFFFFFFFF) &&
      after (.rem 3 1 0 .n64) (ctx0 [(1, 9)]) (fun t => t.me.readG 3 == 9)) = true := by decide +kernel

/-- R97: a shift takes its amount modulo the width, and a source may be the destination. -/
theorem test_shift_amount :
    (after (.shl 1 1 2 .n32) (ctx0 [(1, 3), (2, 33)]) (fun t => t.me.readG 1 == 6) &&
      after (.sra 1 1 2 .i32) (ctx0 [(1, 0x80000000), (2, 31)]) (fun t => t.me.readG 1 == 0xFFFFFFFFFFFFFFFF)) = true := by decide +kernel

/-- R101: a field of length 64 is written as 0. -/
theorem test_bitFields :
    (after (.bext 3 1 60 4) (ctx0 [(1, 0xA000000000000005)]) (fun t => t.me.readG 3 == 0xA) &&
      after (.bins 3 1 8 4) (ctx0 [(1, 0xFFF), (3, 0)]) (fun t => t.me.readG 3 == 0xF00) &&
      after (.bext 3 1 0 0) (ctx0 [(1, 7)]) (fun t => t.me.readG 3 == 7)) = true := by decide +kernel

/-- R46: a write to g0 is discarded. -/
theorem test_g0 : after (.movi 0 5) (ctx0 []) (fun t => t.me.readG 0 == 0) = true := by decide +kernel

/-- R51, R104: a displacement is taken modulo 8,192. -/
theorem test_branch_wraps : after (.beq 1 2 0x3FFF) (ctx0 []) (fun t => t.cur.next == 8191) = true := by decide +kernel

/-- R107: the return address in g31 and in shadow-stack entry 0, at 0x1F000. -/
theorem test_call :
    after (.call 5) (ctx0 []) (fun t => t.cur.next == 5 && t.me.readG 31 == 1 && t.me.ls.sdep == 1 && t.readN 0x300000001F000 8 == 1) = true := by
  decide +kernel

/-- R111: a loop of no iterations goes past its body. -/
theorem test_loop_zero : after (.loop 1 4) (ctx0 []) (fun t => t.cur.next == 5 && !t.me.ls.act) = true := by decide +kernel

/-- R57, R390: `wfi` at user privilege raises PRIV, whose handler is at TRAPVEC.BASE. -/
theorem test_privilege :
    after .wfi (ctx0 [] { trapvec := 0x20064 }) (fun t => t.cur.out == .trap && t.me.cause.code == 2 && t.me.pc == 100 && t.me.sup) = true := by
  decide +kernel

/-- R162: a byte load extends its sign; the unsigned form does not. -/
theorem test_loads :
    (after (.ldb 3 1 0) { ctx0 [(1, 0x40)] with mem := [(0x3000000000040, 0x80)] } (fun t => t.me.readG 3 == 0xFFFFFFFFFFFFFF80) &&
      after (.ldbn 3 1 0) { ctx0 [(1, 0x40)] with mem := [(0x3000000000040, 0x80)] } (fun t => t.me.readG 3 == 0x80)) = true := by decide +kernel

/-- R142: a store reaches memory when the write buffer drains; its bank is given by the sector's address. -/
theorem test_store_drains :
    after (.stw 3 1 0) (ctx0 [(1, 0x40), (3, 0x1122334455667788)]) (fun t =>
      t.mem == [] && t.my.wb.any fun e =>
        after (.writeBufferDrain 0 e.bank) t fun u => u.readN 0x3000000000040 8 == 0x55667788) = true := by decide +kernel

/-- R168: a signed minimum at the home. -/
theorem test_atomic :
    after (.homeAccess 384) (asked (.atomic 4 32 true 0xFFFFFFFF 0) [] [(0x10000000000, 5)]) (fun t => t.readN 0x10000000000 8 == 0xFFFFFFFF) = true := by
  decide +kernel

/-- R215, R216: lanes of one byte wrap alone. -/
theorem test_vadd_i8 : after (.vectorComplete 0 0) (vec (.vadd 3 1 2 0 .i8 .dflt) 0x01FF 0x0101 0) (fun t => lane0 t == (0x0200, {})) = true := by
  decide +kernel

/-- R74 to R79: 1 + 2^-24 in f32 is a tie, to even or up; both are inexact. -/
theorem test_vadd_f32 :
    (after (.vectorComplete 0 0) (vec (.vadd 3 1 2 0 .f32 .rne) 0x3F800000 0x33800000 0) (fun t => lane0 t == (0x3F800000, { nx := true })) &&
      after (.vectorComplete 0 0) (vec (.vadd 3 1 2 0 .f32 .rup) 0x3F800000 0x33800000 0 .rup)
        (fun t => lane0 t == (0x3F800001, { nx := true }))) = true := by decide +kernel

/-- R255 to R257: 3 × −2 of two i8 elements, added to nothing; its tile's row 0 holds it in column 0. -/
theorem test_mill_i8 :
    (let m : Cmd := { dense1 with started := true, mill := { fmtA := 0, fmtB := 0 } }
     after (.millStep 0) { headed m with mem := memWrite (memWrite [] (scratchBase 0 + 0x1000) [3]) (scratchBase 0 + 0x2000) [0xFE] }
       (fun t => ((t.core 0).tileRow 15 0).extractLsb' 0 32 == 0xFFFFFFFA)) = true := by decide +kernel

/-- R24, R313: a semaphore at 0 blocks, and one at 1 is taken. -/
theorem test_sacq :
    (after (.sacq 5) (ctx0 []) (fun t => t.me.run == .blocked (.sacq 5)) &&
      after (.sacq 5) (ctx0 [] { sems := [(5, { count := 1 })] }) (fun t => (t.my.sems.get {} 5).count == 0 && t.cur.out == .go)) = true := by
  decide +kernel

/-- R303: the first copy of a core has TID 1. -/
theorem test_cpgo : after (.cpgo 3) (ctx0 []) (fun t => t.me.readG 3 == 1 && t.my.cq.length == 1) = true := by decide +kernel

/-- R449: the test access port reads IDCODE in its next step; the placed word is found there. -/
theorem test_step_tap : stepped (State.reset.withFetchWord 8 0x01) (fun t => t.io.tap.dr == 0x1B7AE0F3 && t.io.tap.ir == 1) = true := by
  decide +kernel

/-- The bundle placed for the first step runs: `movi` in the A slot, `lui` by way of the decoder's table word, `call` in the C slot. -/
theorem test_step_bundle :
    (stepped (State.reset.withFetchWord 32 0x42307FFF) (fun t => (t.ctx 0 0).pc == 1) &&
      stepped (State.reset.withFetchWord 32 0x02000005) (fun t => (t.ctx 0 0).pc == 5 && (t.ctx 0 0).readG 31 == 1)) = true := by
  decide +kernel

end Sys2Proof.Tests
end

section
/-! PROOFS. Memory keeps its canonical form. A state is sound when its memory is in that form (`SoundMem`). Memory is changed in few ways:
bytes are written one by one (`memSet`), or cells are left out (`List.filter`), and Laws/Memory.lean shows that both keep the form. Every
function of the model from which a step builds its next state therefore keeps soundness: one lemma `f_sound` for each function `f`, in the
order of the model's files, from the lemmas of the functions that `f` calls. `step_sound` is the last of them. -/

namespace Sys2Proof.Machine

/-- Soundness depends on memory alone, so what leaves memory as it is keeps it. -/
theorem SoundMem.of_mem {s t : State} (h : SoundMem s) (e : t.mem = s.mem) : SoundMem t := by
  unfold SoundMem
  rw [e]
  exact h

/-! A sound component of a result, under the name that a match gives it. -/

theorem SoundMem.fst {α : Type} {r : State × α} {t : State} {a : α} (h : SoundMem r.1) (e : r = (t, a)) : SoundMem t := by
  subst e
  exact h

theorem SoundMem.snd {α : Type} {r : α × State} {a : α} {t : State} (h : SoundMem r.2) (e : r = (a, t)) : SoundMem t := by
  subst e
  exact h

theorem SoundMem.snd_fst {α β : Type} {r : α × State × β} {a : α} {t : State} {b : β} (h : SoundMem r.2.1) (e : r = (a, t, b)) :
    SoundMem t := by
  subst e
  exact h

theorem SoundMem.snd_snd {α β : Type} {r : α × β × State} {a : α} {b : β} {t : State} (h : SoundMem r.2.2) (e : r = (a, b, t)) :
    SoundMem t := by
  subst e
  exact h

end Sys2Proof.Machine

namespace Sys2Proof.Laws

open Sys2Proof.Machine

variable {s : State}

/-! ### What a result holds -/

/-- The state that an outcome goes on with, if any, is sound. -/
def NextSound : Host.Outcome State Fault Refusal → Prop
  | .next t => SoundMem t
  | .fault _ | .refused _ => True

/-- What a result that succeeds holds has a property. -/
def OkHas {ε α : Type} (p : α → Prop) : Except ε α → Prop
  | .ok x => p x
  | .error _ => True

/-- What an optional result holds has a property. -/
def SomeHas {α : Type} (p : α → Prop) : Option α → Prop
  | some x => p x
  | none => True

theorem NextSound.next {r : Host.Outcome State Fault Refusal} {t : State} (h : NextSound r) (e : r = .next t) : SoundMem t := by
  subst e
  exact h

theorem OkHas.ok {ε α : Type} {p : α → Prop} {r : Except ε α} {x : α} (h : OkHas p r) (e : r = .ok x) : p x := by
  subst e
  exact h

theorem SomeHas.some {α : Type} {p : α → Prop} {r : Option α} {x : α} (h : SomeHas p r) (e : r = some x) : p x := by
  subst e
  exact h

/-! ### Updates, choices and folds -/

/-- A state with its other fields replaced. -/
theorem mk_sound {cores clusters granaries net reeve io tower mem poison gatherings images netImages cur agenda turn freeCtr stamp}
    (h : memWf mem = true) :
    SoundMem ⟨cores, clusters, granaries, net, reeve, io, tower, mem, poison, gatherings, images, netImages, cur, agenda, turn, freeCtr,
      stamp⟩ := h

theorem ite_sound {c : Prop} {_ : Decidable c} {s t : State} (hs : SoundMem s) (ht : SoundMem t) : SoundMem (if c then s else t) := by
  split
  · exact hs
  · exact ht

theorem ite_ok {ε α : Type} (p : α → Prop) {c : Prop} {_ : Decidable c} {a b : Except ε α} {x : α} (e : (if c then a else b) = .ok x)
    (ha : OkHas p a) (hb : OkHas p b) : p x := by
  split at e
  · exact ha.ok e
  · exact hb.ok e

theorem foldl_sound {α : Type} {l : List α} {f : State → α → State} (hf : ∀ {s : State} {x : α}, SoundMem s → SoundMem (f s x))
    (h : SoundMem s) : SoundMem (l.foldl f s) := foldl_wf l f s (fun _ _ => hf) h

/-! ### The state after reset -/

theorem reset_sound : SoundMem State.reset := rfl

/-! ### Shared operations -/

theorem updCore_sound {k : Nat} {f : Core → Core} (h : SoundMem s) : SoundMem (s.updCore k f) := h

theorem updCluster_sound {c : Nat} {f : Cluster → Cluster} (h : SoundMem s) : SoundMem (s.updCluster c f) := h

theorem updGranary_sound {g : Nat} {f : Granary → Granary} (h : SoundMem s) : SoundMem (s.updGranary g f) := h

theorem updCtx_sound {k c : Nat} {f : Ctx → Ctx} (h : SoundMem s) : SoundMem (s.updCtx k c f) := h

theorem updMe_sound {f : Ctx → Ctx} (h : SoundMem s) : SoundMem (s.updMe f) := h

theorem updMy_sound {f : Core → Core} (h : SoundMem s) : SoundMem (s.updMy f) := h

theorem updCur_sound {f : Cur → Cur} (h : SoundMem s) : SoundMem (s.updCur f) := h

theorem setG_sound {r : R5} {v : Word} (h : SoundMem s) : SoundMem (s.setG r v) := h

theorem rearm_sound {cl : Nat} (h : SoundMem s) : SoundMem (s.rearm cl) := by
  unfold State.rearm
  exact ite_sound (h.of_mem rfl) h

theorem freeze_sound (h : SoundMem s) : SoundMem s.freeze := by
  unfold State.freeze
  exact ite_sound h (h.of_mem rfl)

theorem write_sound {a : Nat} {bs : List Byte} (h : SoundMem s) : SoundMem (s.write a bs) := write_wf s a bs h

theorem writeN_sound {a n x : Nat} (h : SoundMem s) : SoundMem (s.writeN a n x) := by
  unfold State.writeN
  exact write_sound h

theorem raise_sound {src : Nat} (h : SoundMem s) : SoundMem (s.raise src) := by
  unfold State.raise
  exact ite_sound (h.of_mem rfl) (ite_sound (updCore_sound (ite_sound (h.of_mem rfl) (h.of_mem rfl))) (ite_sound (h.of_mem rfl)
    (h.of_mem rfl)))

theorem updPair_sound {key : Nat} {f : Pair → Pair} (h : SoundMem s) : SoundMem (s.updPair key f) := h

theorem exchanged_sound {src dst : Nat} (h : SoundMem s) : SoundMem (s.exchanged src dst) := by
  unfold State.exchanged
  exact ite_sound h (h.of_mem rfl)

theorem messaged_sound {src pa : Nat} (h : SoundMem s) : SoundMem (s.messaged src pa) := by
  unfold State.messaged
  split
  · exact mk_sound (exchanged_sound h)
  · exact exchanged_sound h

theorem ifInTurn_sound {t : State} (h1 : SoundMem s) (h2 : SoundMem t) : SoundMem (s.ifInTurn t) := by
  unfold State.ifInTurn
  exact ite_sound h2 h1

theorem llcTouch_sound {pa : Nat} {touch : Touch} {demand : Bool} (h : SoundMem s) : SoundMem (llcTouch s pa touch demand) := by
  unfold llcTouch
  split
  · exact h.of_mem rfl
  · exact h

theorem llcReads_sound {pa n : Nat} (h : SoundMem s) : SoundMem (llcReads s pa n) := by
  unfold llcReads
  exact foldl_sound (fun h => llcTouch_sound h) h

theorem llcWrite_sound {pa n : Nat} (h : SoundMem s) : SoundMem (llcWrite s pa n) := by
  unfold llcWrite
  exact llcTouch_sound h

theorem refusedAt_sound {t : Nat} (h : SoundMem s) : SoundMem (s.refusedAt t) := h

theorem walkTouch_sound {cl va : Nat} (h : SoundMem s) : SoundMem (walkTouch s cl va) := by
  unfold walkTouch
  exact foldl_sound (fun h => ite_sound (h.of_mem rfl) (exchanged_sound (llcTouch_sound h))) h

theorem walked_sound {cl va : Nat} (h : SoundMem s) : SoundMem (walked s cl va) := by
  unfold walked
  split
  · exact updCluster_sound (walkTouch_sound h)
  · exact walkTouch_sound h

theorem engWalk_sound {k va n : Nat} (h : SoundMem s) : SoundMem (engWalk s k va n) := by
  unfold engWalk
  exact ite_sound (refusedAt_sound (ite_sound h (foldl_sound (fun h => ite_sound (walked_sound h) h) h))) (ite_sound h (foldl_sound
    (fun h => ite_sound (walked_sound h) h) h))

theorem putSector_sound {pa : Nat} {bs : List Byte} (h : SoundMem s) : SoundMem (s.putSector pa bs) := by
  unfold State.putSector
  split
  · exact ite_sound (write_sound h) (h.of_mem rfl)
  · exact ite_sound (mk_sound (write_sound (llcWrite_sound h))) (write_sound (llcWrite_sound h))

theorem physWrite_sound {pa : Nat} {bs : List Byte} (h : SoundMem s) : SomeHas SoundMem (s.physWrite pa bs) := by
  unfold State.physWrite
  split
  · trivial
  · exact foldl_sound (fun h => putSector_sound (messaged_sound h)) h

theorem recWalk_sound {cl : Option Nat} {va n : Nat} (h : SoundMem s) : SoundMem (recWalk s cl va n) := by
  unfold recWalk
  split
  · exact h
  · exact foldl_sound (fun h => ite_sound (walkTouch_sound h) h) h

theorem recWrite_sound {cl : Option Nat} {va : Nat} {bs : List Byte} (h : SoundMem s) : OkHas SoundMem (recWrite s cl va bs) := by
  unfold recWrite
  split
  · trivial
  · exact foldl_sound (fun h => putSector_sound (messaged_sound h)) (recWalk_sound h)

theorem putStatus_sound {r : TaskRec} {st exit cause : Nat} (h : SoundMem s) : OkHas SoundMem (putStatus s r st exit cause) := by
  unfold putStatus
  exact recWrite_sound h

theorem putFlags_sound {r : TaskRec} (h : SoundMem s) : SoundMem (putFlags s r) := by
  unfold putFlags
  split
  · next hr => exact (recWrite_sound h).ok hr
  · exact h

theorem updRec_sound {ticket : Nat} {f : TaskRec → TaskRec} (h : SoundMem s) : SoundMem (s.updRec ticket f) := h

theorem dropRec_sound {ticket : Nat} (h : SoundMem s) : SoundMem (s.dropRec ticket) := h

theorem countRej_sound {die : Nat} (h : SoundMem s) : SoundMem (s.countRej die) := h

theorem stopCores_sound {ks : List Nat} (h : SoundMem s) : SoundMem (s.stopCores ks) := by
  unfold State.stopCores
  exact foldl_sound (fun h => rearm_sound (h.of_mem rfl)) (mk_sound (foldl_sound (fun h => h.of_mem rfl) h))

theorem endTask_sound {ticket : Nat} {c : Cause} (h : SoundMem s) : SoundMem (s.endTask ticket c) := by
  unfold State.endTask
  split
  · exact h
  · refine dropRec_sound ?_
    split
    · next hr => exact (putStatus_sound (stopCores_sound h)).ok hr
    · exact stopCores_sound h

theorem hardError_sound {ticket : Nat} {c : Cause} (h : SoundMem s) : SoundMem (s.hardError ticket c) := by
  unfold State.hardError
  split
  · exact h
  · refine ite_sound ?_ (endTask_sound h)
    dsimp only
    split
    · next hr => exact (putStatus_sound (updRec_sound (stopCores_sound h))).ok hr
    · exact updRec_sound (stopCores_sound h)

theorem appendTrap_sound {k c causeWord : Nat} {resume : PC} (h : SoundMem s) : SoundMem (s.appendTrap k c causeWord resume) := by
  unfold State.appendTrap
  refine raise_sound (ite_sound (h.of_mem rfl) ?_)
  split
  · exact h.of_mem rfl
  · next hr => exact ((physWrite_sound h).some hr).of_mem rfl

theorem takeTrap_sound {k c : Nat} {t : TrapInfo} (h : SoundMem s) : SoundMem (s.takeTrap k c t) := by
  unfold State.takeTrap
  refine ite_sound ?_ (ite_sound (h.of_mem rfl) (appendTrap_sound (h.of_mem rfl)))
  split
  · exact endTask_sound h
  · exact stopCores_sound h

theorem trap_sound {c : Cause} {info : BitVec 32} (h : SoundMem s) : SoundMem (s.trap c info) := by
  unfold State.trap
  exact updCur_sound (takeTrap_sound h)

theorem privileged_sound {f : State → State} (h1 : SoundMem s) (h2 : ∀ (a : State), SoundMem a → SoundMem (f a)) :
    SoundMem (s.privileged f) := by
  unfold State.privileged
  exact ite_sound (h2 _ h1) (trap_sound h1)

theorem stall_sound (h : SoundMem s) : SoundMem s.stall := h

theorem report_sound {k c : Nat} {r : Report} (h : SoundMem s) : SoundMem (s.report k c r) := h

/-! ### Arithmetic flags -/

theorem orFlags_sound {k : Nat} {f : Flags} (h : SoundMem s) : SoundMem (s.orFlags k f) := h

/-! ### The core side of memory -/

theorem spend_sound (h : SoundMem s) : SoundMem s.spend := h

theorem updIface_sound {t : Nat} {f : Iface → Iface} (h : SoundMem s) : SoundMem (s.updIface t f) := h

theorem unkeep_sound {ks : List Nat} {f : Part → Bool} (h : SoundMem s) : SoundMem (unkeep s ks f) := by
  unfold unkeep
  exact foldl_sound (fun h => ite_sound h (h.of_mem rfl)) h

theorem askAgain_sound {ks : List Nat} {sector : Nat} (h : SoundMem s) : SoundMem (askAgain s ks sector) := by
  unfold askAgain
  exact foldl_sound (fun h => ite_sound h (h.of_mem rfl)) h

theorem dropCopies_sound {k sector : Nat} (h : SoundMem s) : SoundMem (dropCopies s k sector) := by
  unfold dropCopies
  exact ite_sound (unkeep_sound (h.of_mem rfl)) (updCluster_sound (unkeep_sound (h.of_mem rfl)))

theorem leaveFrd_sound {k c e : Nat} (h : SoundMem s) : SoundMem (leaveFrd s k c e) := h

theorem answerTo_sound {ask : Asker} {k' c stamp : Nat} {bytes : List Byte} {err : Option (Cause × BitVec 32)} (h : SoundMem s) :
    SoundMem (answerTo s ask k' c stamp bytes err) := by
  unfold answerTo
  dsimp only
  split
  · split
    · exact h.of_mem rfl
    · refine ite_sound (h.of_mem rfl) (ite_sound (h.of_mem rfl) ?_)
      split
      · split
        · exact ite_sound (dropCopies_sound (h.of_mem rfl)) (h.of_mem rfl)
        · exact h.of_mem rfl
      · refine ite_sound ?_ ?_
        · refine report_sound (leaveFrd_sound ?_)
          split
          · exact ite_sound (dropCopies_sound (h.of_mem rfl)) (h.of_mem rfl)
          · exact h.of_mem rfl
        · refine ite_sound ?_ ?_
          · split
            · exact ite_sound (dropCopies_sound (h.of_mem rfl)) (h.of_mem rfl)
            · exact h.of_mem rfl
          · refine updCtx_sound ?_
            split
            · exact ite_sound (dropCopies_sound (h.of_mem rfl)) (h.of_mem rfl)
            · exact h.of_mem rfl
  · split
    · exact h.of_mem rfl
    · exact ite_sound (h.of_mem rfl) (h.of_mem rfl)
  · exact foldl_sound (fun h => h.of_mem rfl) (h.of_mem rfl)
  · exact h

theorem wakeReader_sound {k c : Nat} {v : Word} (h : SoundMem s) : SoundMem (wakeReader s k c v) := by
  unfold wakeReader
  split
  · exact h.of_mem rfl
  · exact h

theorem deliverUnit_sound {t : Nat} {m : Msg} (h : SoundMem s) : SoundMem (deliverUnit s t m) := by
  unfold deliverUnit
  split
  · exact h.of_mem rfl
  · exact answerTo_sound h
  · exact wakeReader_sound h
  all_goals exact h.of_mem rfl

theorem submit_sound {src dst : Nat} {cls : MsgClass} {b : Body} (h : SoundMem s) : SoundMem (s.submit src dst cls b) := by
  unfold State.submit
  exact ite_sound (deliverUnit_sound h) (h.of_mem rfl)

theorem sendAccess_sound {a : Access} (h : SoundMem s) : SoundMem (sendAccess s a) := by
  unfold sendAccess
  exact submit_sound (h.of_mem rfl)

theorem sendWrite_sound {k sector : Nat} {owners : List Nat} {bytes : Tab (Byte × Nat × Nat)} {err : Bool}
    {hid : List (Nat × Nat × Nat)} (h : SoundMem s) : SoundMem (sendWrite s k sector owners bytes err hid) := by
  unfold sendWrite
  exact ite_sound h (sendAccess_sound (foldl_sound (fun h => h.of_mem rfl) (askAgain_sound h)))

theorem sampleAccess_sound {k addr : Nat} (h : SoundMem s) : SoundMem (sampleAccess s k addr) := by
  unfold sampleAccess
  exact ite_sound h (h.of_mem rfl)

theorem ccPut_sound {k : Nat} {l : Line} (h : SoundMem s) : SoundMem (ccPut s k l) := by
  unfold ccPut
  dsimp only
  split
  · exact h.of_mem rfl
  · exact sendWrite_sound (h.of_mem rfl)

theorem ccWrite_sound {k : Nat} {l : Line} (h : SoundMem s) : SoundMem (ccWrite s k l) := by
  unfold ccWrite
  exact ite_sound h (ite_sound (sendWrite_sound (sampleAccess_sound h)) (ccPut_sound (sampleAccess_sound h)))

theorem loseRestart_sound {k : Nat} (h : SoundMem s) : SoundMem (loseRestart s k) := by
  unfold loseRestart
  split
  · exact h
  · split
    · exact h
    · exact ite_sound (putFlags_sound (h.of_mem rfl)) h

theorem l1Use_sound {k : Nat} {l : Line} (h : SoundMem s) : SoundMem (l1Use s k l) := by
  unfold l1Use
  dsimp only
  split
  · exact ite_sound (h.of_mem rfl) (loseRestart_sound (ccWrite_sound (h.of_mem rfl)))
  · exact h.of_mem rfl

theorem ccFill_sound {k addr : Nat} {wpage : Bool} {bs : List Byte} (h : SoundMem s) : SoundMem (ccFill s k addr wpage bs) := by
  unfold ccFill
  exact ite_sound h (ccPut_sound h)

theorem fillLine_sound {k addr : Nat} {wpage : Bool} {bs : List Byte} (h : SoundMem s) : SoundMem (fillLine s k addr wpage bs) := by
  unfold fillLine
  exact l1Use_sound (ccFill_sound h)

theorem wbEnter_sound {k c stamp : Nat} {ps : List Part} {data : List Byte} {skip : Nat → Bool} (h : SoundMem s) :
    SoundMem (wbEnter s k c stamp ps data skip) := by
  unfold wbEnter
  exact foldl_sound (fun h => ite_sound h (h.of_mem rfl)) h

theorem sendLoadPart_sound {k c stamp : Nat} {mk : Nat → Asker} {rd : Reader} {i : Nat} {p : Part} (h : SoundMem s) :
    SoundMem (sendLoadPart s k c stamp mk rd i p).1 := by
  unfold sendLoadPart
  split
  · exact h.of_mem rfl
  · dsimp only
    split
    · split
      · exact ite_sound (l1Use_sound h) h
      · exact h
    · split
      · split
        · exact h
        · exact sendAccess_sound h
      · split
        · split
          · split
            · split
              · exact fillLine_sound (updCluster_sound (sampleAccess_sound h))
              · exact updCluster_sound (sampleAccess_sound h)
            · exact sendAccess_sound (sampleAccess_sound h)
          · exact sendAccess_sound (sampleAccess_sound h)
        · exact sendAccess_sound h

theorem sendLoadParts_sound {k c stamp : Nat} {mk : Nat → Asker} {rd : Reader} {i : Nat} {ps : List Part} (h : SoundMem s) :
    SoundMem (sendLoadParts s k c stamp mk rd i ps).1 := by
  induction ps generalizing s i with
  | nil => exact h
  | cons p t ih =>
    unfold sendLoadParts
    refine ih ?_
    split
    · exact h
    · exact sendLoadPart_sound h

theorem l1Home_sound {k : Nat} {l : Line} (h : SoundMem s) : SoundMem (l1Home s k l) := by
  unfold l1Home
  refine ite_sound h ?_
  split
  · exact sendWrite_sound h
  · exact h.of_mem rfl

theorem sendLine_sound {k : Nat} {l : Line} (h : SoundMem s) : SoundMem (sendLine s k l) := by
  unfold sendLine
  exact sendWrite_sound h

theorem ccHome_sound {k : Nat} {pick : Line → Bool} (h : SoundMem s) : SoundMem (ccHome s k pick) := by
  unfold ccHome
  exact ite_sound h (updCluster_sound (foldl_sound (fun h => sendLine_sound h) h))

theorem flushSector_sound {k sector : Nat} {drop : Bool} (h : SoundMem s) : SoundMem (flushSector s k sector drop) := by
  unfold flushSector
  refine ccHome_sound (updCore_sound ?_)
  split
  · exact l1Home_sound h
  · exact h

theorem carry_sound {k : Nat} {sc : Scope} (h : SoundMem s) : SoundMem (carry s k sc) := by
  unfold carry
  split
  · exact h
  · exact h
  · exact updCore_sound (foldl_sound (fun h => ccWrite_sound h) h)
  all_goals exact ccHome_sound (updCore_sound (foldl_sound (fun h => l1Home_sound h) h))

theorem releaseTry_sound {k c : Nat} {sc : Scope} (h : SoundMem s) : SoundMem (releaseTry s k c sc).2 := by
  unfold releaseTry
  dsimp only
  split
  · exact h
  · exact carry_sound h

theorem acquireNow_sound {k : Nat} {sc : Scope} (h : SoundMem s) : SoundMem (acquireNow s k sc) := by
  unfold acquireNow
  split
  · exact h
  · exact h
  · exact updCore_sound (unkeep_sound h)
  all_goals exact ite_sound (updCore_sound (unkeep_sound h)) (updCluster_sound (updCore_sound (unkeep_sound h)))

theorem completeWait_sound {k c : Nat} (h : SoundMem s) : SoundMem (completeWait s k c) := by
  unfold completeWait
  refine updCtx_sound ?_
  split <;> exact h.of_mem rfl

theorem wakeOne_sound {k c : Nat} {w : Wait} (h : SoundMem s) : SoundMem (wakeOne s k c w) := by
  unfold wakeOne
  split
  · exact ite_sound (h.of_mem rfl) (completeWait_sound (acquireNow_sound (h.of_mem rfl)))
  · exact completeWait_sound (acquireNow_sound h)
  · exact ite_sound (h.of_mem rfl) (completeWait_sound (acquireNow_sound h))
  · exact completeWait_sound (h.of_mem rfl)
  all_goals exact completeWait_sound h

theorem wake_sound {k : Nat} (h : SoundMem s) : SoundMem (wake s k) := by
  unfold wake
  refine foldl_sound (fun h => ?_) h
  split
  · exact ite_sound (wakeOne_sound h) h
  · exact h

theorem semIncr_sound {k c n : Nat} {dev : Bool} {stamp : Nat} (h : SoundMem s) : SoundMem (semIncr s k c n dev stamp) := by
  unfold semIncr
  exact wake_sound (ite_sound (h.of_mem rfl) (h.of_mem rfl))

/-! ### Control -/

theorem goTo_sound {target : PC} {taken : Bool} (h : SoundMem s) : SoundMem (s.goTo target taken) := h

theorem branch_sound {cond : Bool} {disp : BitVec 14} (h : SoundMem s) : SoundMem (s.branch cond disp) := by
  unfold State.branch
  exact ite_sound (ite_sound (trap_sound h) (h.of_mem rfl)) h

theorem callTo_sound {target : PC} (h : SoundMem s) : SoundMem (s.callTo target) := by
  unfold State.callTo
  exact ite_sound (trap_sound h) (goTo_sound (updMe_sound (writeN_sound h)))

theorem beginLoop_sound {n : Word} {len win : Nat} {rep : Bool} (h : SoundMem s) : SoundMem (s.beginLoop n len win rep) := by
  unfold State.beginLoop
  exact ite_sound (trap_sound h) (ite_sound (h.of_mem rfl) (h.of_mem rfl))

theorem execHend_sound (h : SoundMem s) : NextSound (execHend s) := by
  unfold execHend
  have hs : SoundMem (if s.cur.ctx ≠ 0 ∧ lastToArrive s then releaseTry s s.cur.core s.cur.ctx .dom else (true, s)).2 := by
    split
    · exact releaseTry_sound h
    · exact h
  exact ite_sound (trap_sound hs) (ite_sound (stall_sound hs) (updCur_sound (wake_sound (updMy_sound (updMe_sound hs)))))

/-! ### System registers -/

theorem wayBegin_sound {cl : Nat} (h : SoundMem s) : SoundMem (wayBegin s cl) := by
  unfold wayBegin
  exact ite_sound h (h.of_mem rfl)

theorem writeWaymask_sound {cl : Nat} {v : Word} (h : SoundMem s) : SoundMem (writeWaymask s cl v) := by
  unfold writeWaymask
  exact wayBegin_sound (h.of_mem rfl)

theorem writeWaylim_sound {cl : Nat} {v : Word} (h : SoundMem s) : SoundMem (writeWaylim s cl v) := by
  unfold writeWaylim
  exact wayBegin_sound (h.of_mem rfl)

theorem takeDomain_sound {cl : Nat} {d : Domain} (h : SoundMem s) : SoundMem (takeDomain s cl d) := by
  unfold takeDomain
  refine ite_sound (h.of_mem rfl) ?_
  dsimp only
  split
  · exact ite_sound (h.of_mem rfl) (h.of_mem rfl)
  · exact h.of_mem rfl

theorem writeDomain_sound {cl : Nat} {v : Word} (h : SoundMem s) : SoundMem (writeDomain s cl v) := by
  unfold writeDomain
  exact ite_sound (h.of_mem rfl) (rearm_sound (takeDomain_sound (rearm_sound h)))

theorem sysWrite_sound {k c n : Nat} {v : Word} (h : SoundMem s) : SoundMem (sysWrite s k c n v) := by
  unfold sysWrite
  exact ite_sound (writeDomain_sound h) (ite_sound (h.of_mem rfl) (ite_sound (h.of_mem rfl) (ite_sound (h.of_mem rfl) (ite_sound
    (h.of_mem rfl) (ite_sound (h.of_mem rfl) (ite_sound (h.of_mem rfl) (ite_sound (h.of_mem rfl) (ite_sound (h.of_mem rfl) (ite_sound
    (writeWaymask_sound h) (ite_sound (writeWaylim_sound h) (ite_sound (h.of_mem rfl) (ite_sound (h.of_mem rfl) (ite_sound (h.of_mem
    rfl) (ite_sound (h.of_mem rfl) (ite_sound (h.of_mem rfl) (ite_sound (h.of_mem rfl) h))))))))))))))))

/-! ### Loads, stores, remote forms, fences and cache maintenance as they issue -/

theorem setMap_sound {k : Nat} {g : Gleaner} {cs : List Nat} (h : SoundMem s) : SoundMem (setMap s k g cs) := by
  unfold setMap
  exact foldl_sound (fun h => write_sound h) h

theorem addSupp_sound {k n : Nat} (h : SoundMem s) : SoundMem (addSupp s k n) := by
  unfold addSupp
  exact ite_sound h (h.of_mem rfl)

theorem opFault_sound {k e : Nat} {c : Cause} {va : Nat} {info : BitVec 32} (h : SoundMem s) : SoundMem (opFault s k e c va info) := h

theorem sendHome_sound {k e : Nat} {o : Op} (h : SoundMem s) : SoundMem (sendHome s k e o) := by
  unfold sendHome
  exact updCore_sound (foldl_sound (fun h => sendAccess_sound h) (foldl_sound (fun h => flushSector_sound h) h))

theorem opStart_sound {k e : Nat} (h : SoundMem s) : SoundMem (opStart s k e) := by
  unfold opStart
  refine ite_sound (h.of_mem rfl) ?_
  split
  · exact h.of_mem rfl
  · exact h.of_mem rfl
  · split
    · exact h.of_mem rfl
    · exact ite_sound (h.of_mem rfl) (ite_sound (ite_sound (h.of_mem rfl) (updCore_sound (sendLoadParts_sound h))) (ite_sound (h.of_mem
        rfl) (ite_sound (h.of_mem rfl) (sendHome_sound (h.of_mem rfl)))))

theorem issueOp_sound {o : Op} (h : SoundMem s) : SoundMem (s.issueOp o) := by
  unfold State.issueOp
  split
  · exact h.of_mem rfl
  · exact opStart_sound (h.of_mem rfl)

theorem load_sound {i : Instr} {d : R5} {vals : List Word} {ea : Word} {n : Nat} {signed vec : Bool} (h : SoundMem s) :
    SoundMem (s.load i d vals ea n signed vec) := by
  unfold State.load
  split
  · exact trap_sound h
  · split
    · exact trap_sound h
    · refine ite_sound (h.of_mem rfl) ?_
      split
      · exact ite_sound (h.of_mem rfl) (ite_sound (updMe_sound (sendLoadParts_sound h)) (issueOp_sound h))
      · exact ite_sound (h.of_mem rfl) (issueOp_sound h)
      · exact ite_sound (h.of_mem rfl) (issueOp_sound h)

theorem storeEnter_sound {k c stamp : Nat} {ps : List Part} {data : List Byte} {ea : Nat} {cover : Option Gleaner} (h : SoundMem s) :
    SoundMem (storeEnter s k c stamp ps data ea cover) := by
  unfold storeEnter
  split
  · exact wbEnter_sound h
  · exact setMap_sound (wbEnter_sound h)

/-- A release that an operation makes only where it names a scope. -/
theorem optRelease_sound {rel : Option Scope} {k c : Nat} {r : Bool × State} (h : SoundMem s)
    (e : (match rel with
      | none => (true, s)
      | some sc => releaseTry s k c sc) = r) : SoundMem r.2 := by
  cases e
  split
  · exact h
  · exact releaseTry_sound h

theorem store_sound {i : Instr} {vals : List Word} {ea : Word} {data : List Byte} {rel : Option Scope} (h : SoundMem s) :
    SoundMem (s.store i vals ea data rel) := by
  unfold State.store
  dsimp only
  split
  · exact trap_sound h
  · refine ite_sound (addSupp_sound h) ?_
    split
    · exact trap_sound h
    · refine ite_sound (stall_sound h) ?_
      split
      · next hr => exact stall_sound (optRelease_sound h hr)
      · next hr =>
        have ht := optRelease_sound h hr
        split
        · exact ite_sound (trap_sound ht) (ite_sound (stall_sound ht) (ite_sound (issueOp_sound ht)
            (ite_sound (addSupp_sound (storeEnter_sound ht)) (stall_sound ht))))
        · exact ite_sound (stall_sound ht) (issueOp_sound (addSupp_sound ht))
        · exact ite_sound (stall_sound ht) (issueOp_sound (addSupp_sound ht))

theorem homeOp_sound {o : Op} {aligned : Bool} {gate : Option Cause} {rel : Option Scope} (h : SoundMem s) :
    SoundMem (s.homeOp o aligned gate rel) := by
  unfold State.homeOp
  dsimp only
  split
  · exact trap_sound h
  · refine ite_sound (trap_sound h) ?_
    split
    · exact trap_sound h
    · split
      · refine ite_sound (trap_sound h) (ite_sound (stall_sound h) ?_)
        split
        · next hr => exact stall_sound (optRelease_sound h hr)
        · next hr => exact issueOp_sound (optRelease_sound h hr)
      all_goals
        refine ite_sound (stall_sound h) ?_
        split
        · next hr => exact stall_sound (optRelease_sound h hr)
        · next hr => exact issueOp_sound (optRelease_sound h hr)

theorem remoteLd_sound {i : Instr} {a : R5} {ea : Word} {n : Nat} (h : SoundMem s) : SoundMem (s.remoteLd i a ea n) := by
  unfold State.remoteLd
  exact homeOp_sound h

theorem remoteSt_sound {i : Instr} {d a : R5} {ea : Word} {n : Nat} (h : SoundMem s) : SoundMem (s.remoteSt i d a ea n) := by
  unfold State.remoteSt
  exact homeOp_sound h

theorem atomic_sound {i : Instr} {d a b : R5} {o : MemOrd} {sc : Scope} {t : Ty} (h : SoundMem s) :
    SoundMem (s.atomic i d a b o sc t) := by
  unfold State.atomic
  exact homeOp_sound h

theorem execFrd_sound {d a : R5} (h : SoundMem s) : NextSound (execFrd d a s) := by
  unfold execFrd
  dsimp only
  split
  · exact ite_sound (homeOp_sound h) (updMe_sound (homeOp_sound h))
  · exact homeOp_sound h

theorem execFetch_sound {d a : R5} {n : BitVec 7} (h : SoundMem s) : NextSound (execFetch d a n s) := by
  unfold execFetch
  split
  · exact trap_sound h
  · refine ite_sound (trap_sound h) (ite_sound (trap_sound h) (ite_sound (trap_sound h) ?_))
    split
    · exact trap_sound h
    · refine ite_sound (h.of_mem rfl) ?_
      split
      · exact h.of_mem rfl
      · split
        · exact ite_sound (h.of_mem rfl) (updMy_sound (sendLoadParts_sound h))
        · exact ite_sound (h.of_mem rfl) (h.of_mem rfl)
        · exact ite_sound (h.of_mem rfl) (h.of_mem rfl)

theorem execFetchComplete_sound {k i : Nat} (h : SoundMem s) : NextSound (execFetchComplete k i s) := by
  unfold execFetchComplete
  refine ite_sound h ?_
  split
  · exact h
  · split
    · split
      · exact h
      · exact h.of_mem rfl
    · refine ite_sound (updCore_sound (sendLoadParts_sound h)) (ite_sound ?_ h)
      split
      · exact semIncr_sound (updCore_sound (write_sound h))
      · exact updCore_sound (write_sound h)

theorem execFence_sound {o : MemOrd} {sc : Scope} (h : SoundMem s) : NextSound (execFence o sc s) := by
  unfold execFence
  dsimp only
  split
  · exact ite_sound (h.of_mem rfl) (acquireNow_sound h)
  · exact ite_sound (h.of_mem rfl) (acquireNow_sound h)
  · split
    · next hr => exact (releaseTry_sound h).snd hr
    · next hr => exact ((releaseTry_sound h).snd hr).of_mem rfl
  · split
    · next hr =>
      have hreleased := (releaseTry_sound h).snd hr
      exact ite_sound (hreleased.of_mem rfl) (acquireNow_sound hreleased)
    · next hr => exact ((releaseTry_sound h).snd hr).of_mem rfl

theorem maint_sound {i : Instr} {a b : R5} {escapes : Bool} (h : SoundMem s) : SoundMem (s.maint i a b escapes) := by
  unfold State.maint
  split
  · exact trap_sound h
  · exact ite_sound (trap_sound h) (ite_sound (h.of_mem rfl) (issueOp_sound h))

/-! ### Register blocks of the tiles -/

theorem loseTasks_sound (h : SoundMem s) : SoundMem (loseTasks s) := by
  unfold loseTasks
  exact foldl_sound (fun h => hardError_sound h) h

theorem answerAccess_sound {i : Nat} {a : Access} {bytes : List Byte} {err : Option (Cause × BitVec 32)} (h : SoundMem s) :
    SoundMem (answerAccess s i a bytes err) := by
  unfold answerAccess
  split
  · exact h
  · exact submit_sound h

theorem reportStorers_sound {i : Nat} {a : Access} {c : Cause} {info : BitVec 32} (h : SoundMem s) :
    SoundMem (reportStorers s i a c info) := by
  unfold reportStorers
  split
  · dsimp only
    split
    · exact foldl_sound (fun h => submit_sound h) h
    · exact ite_sound (foldl_sound (fun h => submit_sound h) (updCore_sound (foldl_sound (fun h => submit_sound h) h))) (foldl_sound
        (fun h => submit_sound h) h)
  all_goals exact foldl_sound (fun h => submit_sound h) h

theorem failAccess_sound {i : Nat} {a : Access} {c : Cause} {info : BitVec 32} (h : SoundMem s) :
    SoundMem (failAccess s i a c info) := by
  unfold failAccess
  split
  · exact answerAccess_sound (reportStorers_sound h)
  all_goals exact answerAccess_sound h

theorem failPeer_sound {n : Nat} (h : SoundMem s) : SoundMem (failPeer s n) := by
  unfold failPeer
  exact foldl_sound (fun h => failAccess_sound h) (h.of_mem rfl)

theorem regReadClears_sound {t off : Nat} (h : SoundMem s) : SoundMem (regReadClears s t off) := by
  unfold regReadClears
  exact ite_sound (ite_sound (h.of_mem rfl) (ite_sound (h.of_mem rfl) (ite_sound (h.of_mem rfl) (ite_sound (h.of_mem rfl) (ite_sound
    (h.of_mem rfl) (ite_sound (ite_sound (h.of_mem rfl) (ite_sound (h.of_mem rfl) h)) h)))))) (ite_sound (ite_sound (h.of_mem rfl)
    (ite_sound (h.of_mem rfl) h)) (ite_sound (h.of_mem rfl) h))

theorem writeNetctl_sound {r : Nat} {v : Word} (h : SoundMem s) : SoundMem (writeNetctl s r v) := by
  unfold writeNetctl
  exact ite_sound (h.of_mem rfl) (loseTasks_sound (h.of_mem rfl))

theorem writePctl_sound {n : Nat} {v : Word} (h : SoundMem s) : SoundMem (writePctl s n v) := by
  unfold writePctl
  exact ite_sound (h.of_mem rfl) (failPeer_sound (h.of_mem rfl))

theorem reeveWrite_sound {off : Nat} {v : Word} (h : SoundMem s) : SoundMem (reeveWrite s off v) := by
  unfold reeveWrite
  exact ite_sound (h.of_mem rfl) (ite_sound (h.of_mem rfl) (ite_sound (h.of_mem rfl) (ite_sound (h.of_mem rfl) (ite_sound (h.of_mem
    rfl) (ite_sound (h.of_mem rfl) h)))))

theorem ioWrite_sound {off : Nat} {v : Word} {host : Bool} (h : SoundMem s) : SoundMem (ioWrite s off v host) := by
  unfold ioWrite
  exact ite_sound (h.of_mem rfl) (ite_sound (h.of_mem rfl) (ite_sound (h.of_mem rfl) (ite_sound (ite_sound (raise_sound (h.of_mem rfl))
    (h.of_mem rfl)) (ite_sound (h.of_mem rfl) (ite_sound (ite_sound (writePctl_sound h) (h.of_mem rfl)) (ite_sound (h.of_mem rfl)
    (ite_sound (h.of_mem rfl) (ite_sound (h.of_mem rfl) (ite_sound (reeveWrite_sound h) (ite_sound (h.of_mem rfl) (ite_sound (ite_sound
    (freeze_sound (h.of_mem rfl)) (h.of_mem rfl)) (ite_sound (writeNetctl_sound h) h))))))))))))

theorem regWrite_sound {t off : Nat} {v : Word} {host : Bool} (h : SoundMem s) : SoundMem (regWrite s t off v host) := by
  unfold regWrite
  exact ite_sound (ioWrite_sound h) (ite_sound (writeNetctl_sound h) (ite_sound (h.of_mem rfl) h))

theorem regReadBytes_sound {t off n : Nat} (h : SoundMem s) : SoundMem (regReadBytes s t off n).2 := by
  unfold regReadBytes
  exact foldl_sound (fun h => regReadClears_sound h) h

theorem regWriteBytes_sound {t : Nat} {bytes : Tab Byte} {host : Bool} (h : SoundMem s) : SoundMem (regWriteBytes s t bytes host) := by
  unfold regWriteBytes
  exact foldl_sound (fun h => regWrite_sound h) h

/-! ### Homes -/

theorem replicaRead_sound {slice sector : Nat} {demand : Bool} (h : SoundMem s) : SoundMem (replicaRead s slice sector demand).2 := by
  unfold replicaRead
  dsimp only
  split
  · split
    · exact h.of_mem rfl
    · exact updGranary_sound (llcTouch_sound h)
  · exact updGranary_sound (llcTouch_sound h)

theorem dropReplicas_sound {at' : Nat → Bool} {lo hi : Nat} (h : SoundMem s) : SoundMem (dropReplicas s at' lo hi) := h

theorem writeMasked_sound {pa : Nat} {data : Tab (Byte × Nat × Nat)} (h : SoundMem s) : SoundMem (writeMasked s pa data) := by
  have hm : memWf (data.foldl (fun m b => memSet m (pa + b.1) b.2.1) s.mem) = true :=
    List.foldlRecOn (motive := fun m => memWf m = true) _ _ h fun m hm b _ => memSet_wf m _ _ hm
  exact ite_sound (mk_sound hm) (mk_sound hm)

theorem fillFuture_sound {i pa v : Nat} {anyway : Bool} (h : SoundMem s) : SoundMem (fillFuture s i pa v anyway).2 := by
  unfold fillFuture
  dsimp only
  split
  · exact h
  · split
    · exact writeN_sound (writeN_sound h)
    · split
      · exact submit_sound (writeN_sound (writeN_sound h))
      · split
        · exact writeN_sound (writeN_sound h)
        · exact h

theorem park_sound {a : Access} (h : SoundMem s) : SoundMem (park s a) := by
  unfold park
  split
  · exact h.of_mem rfl
  all_goals exact h

theorem performMem_sound {i : Nat} {a : Access} (h : SoundMem s) : SoundMem (performMem s i a) := by
  unfold performMem
  split
  · exact ite_sound (failAccess_sound h) (answerAccess_sound h)
  · exact ite_sound (failAccess_sound h) (answerAccess_sound h)
  · exact answerAccess_sound (writeMasked_sound h)
  · refine ite_sound (failAccess_sound h) (answerAccess_sound ?_)
    split
    · exact writeN_sound h
    · exact h
  · exact ite_sound (failAccess_sound h) (ite_sound (failAccess_sound h) (ite_sound (answerAccess_sound (writeN_sound h)) (ite_sound
      (failAccess_sound h) (park_sound (writeN_sound h)))))
  · refine ite_sound (failAccess_sound h) ?_
    split
    · next hr => exact answerAccess_sound ((fillFuture_sound h).snd hr)
    · next hr => exact failAccess_sound ((fillFuture_sound h).snd hr)
    · next hr => exact failAccess_sound ((fillFuture_sound h).snd hr)

theorem performRegs_sound {i t off : Nat} {a : Access} (h : SoundMem s) : SoundMem (performRegs s i t off a) := by
  unfold performRegs
  split
  · exact answerAccess_sound (foldl_sound (fun h => regReadClears_sound h) h)
  · exact answerAccess_sound (foldl_sound (fun h => regReadClears_sound h) h)
  · exact answerAccess_sound (regWriteBytes_sound h)
  · refine answerAccess_sound ?_
    split
    · exact regWriteBytes_sound (foldl_sound (fun h => regReadClears_sound h) h)
    · exact foldl_sound (fun h => regReadClears_sound h) h
  · exact failAccess_sound h
  · exact failAccess_sound h

theorem performOuter_sound {i : Nat} {peer : Option Nat} {a : Access} (h : SoundMem s) : SoundMem (performOuter s i peer a) := by
  unfold performOuter
  split
  · split
    · exact answerAccess_sound (ite_sound (writeMasked_sound h) (h.of_mem rfl))
    · exact ite_sound (failAccess_sound h) (ite_sound (h.of_mem rfl) (failAccess_sound h))
    all_goals exact ite_sound (h.of_mem rfl) (failAccess_sound h)
  · exact ite_sound (h.of_mem rfl) (failAccess_sound h)

theorem markError_sound {a : Access} (h : SoundMem s) : SoundMem (markError s a) := by
  unfold markError
  exact ite_sound (h.of_mem rfl) h

theorem perform_sound {i : Nat} {a : Access} (h : SoundMem s) : SoundMem (perform s i a) := by
  unfold perform
  refine ite_sound (failAccess_sound h) ?_
  dsimp only
  split
  · split
    · exact failAccess_sound h
    · exact performMem_sound h
  · split
    · exact failAccess_sound h
    · exact performMem_sound h
  · exact ite_sound (failAccess_sound h) (performMem_sound h)
  · exact ite_sound (ite_sound (failAccess_sound (h.of_mem rfl)) (ite_sound (failAccess_sound h) (answerAccess_sound (replicaRead_sound
      h)))) (markError_sound (performMem_sound (llcTouch_sound h)))
  · exact performOuter_sound h
  · exact performOuter_sound h
  · exact performRegs_sound h
  · exact failAccess_sound h

theorem execHomeAccess_sound {i : Nat} (h : SoundMem s) : NextSound (execHomeAccess i s) := by
  unfold execHomeAccess
  refine ite_sound h ?_
  split
  · exact h
  · exact perform_sound (h.of_mem rfl)

theorem freeBytes_sound {n : Nat} (h : SoundMem s) : SoundMem (freeBytes s n).2 := by
  unfold freeBytes
  exact h.of_mem rfl

theorem engReadParts_sound {src : Nat} {ps : List Part} (h : SoundMem s) : SoundMem (engReadParts s src ps).2.2 := by
  induction ps generalizing s with
  | nil => exact h
  | cons p t ih =>
    unfold engReadParts
    refine ih (messaged_sound ?_)
    split
    · exact freeBytes_sound h
    · exact freeBytes_sound h
    · exact regReadBytes_sound h
    · exact llcTouch_sound h
    all_goals exact h

theorem engWriteParts_sound {src : Nat} {ps : List Part} {data : List Byte} {host : Bool} (h : SoundMem s) :
    SoundMem (engWriteParts s src ps data host) := by
  unfold engWriteParts
  refine foldl_sound (fun h => ?_) h
  split
  · exact regWriteBytes_sound (messaged_sound h)
  · exact putSector_sound (messaged_sound h)

theorem peerDown_sound {n : Nat} (h : SoundMem s) : SoundMem (peerDown s n) := by
  unfold peerDown
  exact raise_sound (failPeer_sound (h.of_mem rfl))

theorem engReach_sound {k va n : Nat} (h : SoundMem s) : SoundMem (engReach s k va n) := by
  unfold engReach
  dsimp only
  split
  · exact engWalk_sound h
  · exact ite_sound (peerDown_sound (spend_sound (engWalk_sound h))) (spend_sound (engWalk_sound h))

theorem engRead_sound {k : Nat} {sup : Bool} {va n : Nat} (h : SoundMem s) : OkHas (fun r => SoundMem r.2) (engRead s k sup va n) := by
  unfold engRead
  dsimp only
  split
  · trivial
  · split
    · next hr => exact (engReadParts_sound (engReach_sound h)).snd_snd hr
    · trivial

theorem engWrite_sound {k : Nat} {sup : Bool} {va n v : Nat} (h : SoundMem s) : OkHas SoundMem (engWrite s k sup va n v) := by
  unfold engWrite
  dsimp only
  split
  · trivial
  · split
    · trivial
    · exact engWriteParts_sound (engReach_sound h)

/-! ### Events of memory operations -/

theorem fetchStart_sound {k i : Nat} (h : SoundMem s) : SoundMem (fetchStart s k i) := by
  unfold fetchStart
  dsimp only
  split
  · exact h
  · exact h.of_mem rfl
  · exact ite_sound h (updCore_sound (sendLoadParts_sound h))

theorem walkThen_sound {k : Nat} {o : Op} {write : Bool} {go : State → State} {fail : State → Nat → Cause × Nat → State}
    (h1 : SoundMem s) (h2 : ∀ (a : State), SoundMem a → SoundMem (go a))
    (h3 : ∀ (a : State) (a_1 : Nat) (a_2 : Cause × Nat), SoundMem a → SoundMem (fail a a_1 a_2)) :
    SoundMem (walkThen s k o write go fail) := by
  unfold walkThen
  split
  · exact h2 _ h1
  · split
    · exact h2 _ (walked_sound h1)
    · exact h3 _ _ _ (walked_sound h1)

theorem execTranslationWalk_sound {k e : Nat} (h : SoundMem s) : NextSound (execTranslationWalk k e s) := by
  unfold execTranslationWalk
  refine ite_sound h (ite_sound ?_ ?_)
  · split
    · exact ite_sound (ifInTurn_sound h (walkThen_sound h (fun _ h => fetchStart_sound h) (fun _ _ _ h => h.of_mem rfl))) h
    · exact h
  · split
    · exact ite_sound (ifInTurn_sound h (walkThen_sound h (fun _ h => opStart_sound h) (fun _ _ _ h => h.of_mem rfl))) h
    · exact h

theorem l1Store_sound {k : Nat} {e : WbEntry} (h : SoundMem s) : SoundMem (l1Store s k e) := by
  unfold l1Store
  exact l1Use_sound h

theorem refuseBytes_sound {k : Nat} {e : WbEntry} (h : SoundMem s) : SoundMem (refuseBytes s k e) := by
  unfold refuseBytes
  exact foldl_sound (fun h => h.of_mem rfl) h

theorem drainEntry_sound {k : Nat} {e : WbEntry} (h : SoundMem s) : SoundMem (drainEntry s k e) := by
  unfold drainEntry
  refine ite_sound (l1Store_sound (h.of_mem rfl)) ?_
  split
  · exact ite_sound (writeMasked_sound (h.of_mem rfl)) (sendWrite_sound (h.of_mem rfl))
  · exact ite_sound (writeMasked_sound (h.of_mem rfl)) (sendWrite_sound (h.of_mem rfl))
  · exact ite_sound (sendWrite_sound (h.of_mem rfl)) (ite_sound (refuseBytes_sound (h.of_mem rfl)) (writeMasked_sound (h.of_mem rfl)))
  all_goals exact sendWrite_sound (h.of_mem rfl)

theorem execWriteBufferDrain_sound {k bank : Nat} (h : SoundMem s) : NextSound (execWriteBufferDrain k bank s) := by
  unfold execWriteBufferDrain
  refine ite_sound h ?_
  split
  · exact drainEntry_sound h
  · exact h

theorem cwbPart_sound {k : Nat} {sc : Scope} {pa n : Nat} (h : SoundMem s) : SoundMem (cwbPart s k sc pa n) := by
  unfold cwbPart
  split
  · exact h
  · exact h
  · exact updCore_sound (foldl_sound (fun h => ccWrite_sound h) h)
  all_goals exact ccHome_sound (updCore_sound (foldl_sound (fun h => l1Home_sound h) h))

theorem cinvPart_sound {k : Nat} {sc : Scope} {pa n : Nat} (h : SoundMem s) : SoundMem (cinvPart s k sc pa n) := by
  unfold cinvPart
  dsimp only
  split
  · exact h.of_mem rfl
  · exact h.of_mem rfl
  · exact updCore_sound (unkeep_sound (h.of_mem rfl))
  · exact ite_sound (updCore_sound (unkeep_sound (h.of_mem rfl))) (updCluster_sound (updCore_sound (unkeep_sound (h.of_mem rfl))))
  · exact ite_sound (updCore_sound (unkeep_sound (h.of_mem rfl))) (updCluster_sound (updCore_sound (unkeep_sound (h.of_mem rfl))))
  all_goals exact dropReplicas_sound (ite_sound (updCore_sound (unkeep_sound (h.of_mem rfl))) (updCluster_sound (updCore_sound
    (unkeep_sound (h.of_mem rfl)))))

theorem prefBegin_sound {k e : Nat} {o : Op} {sc : Scope} {a n : Nat} (h : SoundMem s) : SoundMem (prefBegin s k e o sc a n) := by
  unfold prefBegin
  exact ite_sound (updCore_sound (foldl_sound (fun h => foldl_sound (fun h => llcTouch_sound h) h) (foldl_sound (fun h => engWalk_sound
    h) h))) (updCore_sound (sendLoadParts_sound (foldl_sound (fun h => engWalk_sound h) h)))

theorem prefFill_sound {k : Nat} {o : Op} {sc : Scope} (h : SoundMem s) : SoundMem (prefFill s k o sc) := by
  unfold prefFill
  refine foldl_sound (fun h => ?_) h
  split
  · exact ite_sound h (ite_sound (ccFill_sound h) (fillLine_sound h))
  · exact h

theorem pinGranule_sound {pa : Nat} (h : SoundMem s) : SoundMem (pinGranule s pa).2 := by
  unfold pinGranule
  dsimp only
  split
  · exact h.of_mem rfl
  · split
    · exact h.of_mem rfl
    · exact h

theorem unpinGranule_sound {pa : Nat} (h : SoundMem s) : SoundMem (unpinGranule s pa) := h

theorem pinRange_sound {k a n : Nat} (h : SoundMem s) : SoundMem (pinRange s k a n).2 := by
  unfold pinRange
  refine List.foldlRecOn (motive := fun r : Nat × State => SoundMem r.2) _ _ h fun r hr va _ => ?_
  dsimp only
  split
  · exact hr
  · split
    · next ht => exact (pinGranule_sound hr).snd ht
    · next ht => exact (pinGranule_sound hr).snd ht

theorem maintEffect_sound {k c : Nat} {i : Instr} {sup : Bool} {a n : Nat} (h : SoundMem s) :
    OkHas SoundMem (maintEffect s k c i sup a n) := by
  unfold maintEffect
  dsimp only
  split
  · exact foldl_sound (fun h => cwbPart_sound h) h
  · split
    · trivial
    · exact foldl_sound (fun h => cinvPart_sound h) h
  · split
    · trivial
    · exact foldl_sound (fun h => cinvPart_sound h) (foldl_sound (fun h => cwbPart_sound h) h)
  · exact updCtx_sound (pinRange_sound h)
  · refine updCtx_sound (foldl_sound (fun h => ?_) h)
    split
    · exact unpinGranule_sound h
    · exact h
  · exact h

theorem freeOp_sound {k e : Nat} (h : SoundMem s) : SoundMem (freeOp s k e) := h

theorem fillParts_sound {k : Nat} {ps : List Part} (h : SoundMem s) : SoundMem (fillParts s k ps) := by
  unfold fillParts
  refine foldl_sound (fun h => ?_) h
  split
  · exact ite_sound (fillLine_sound h) h
  · exact h

theorem writeResult_sound {k : Nat} {o : Op} (h : SoundMem s) : SoundMem (writeResult s k o) := by
  unfold writeResult
  split
  · split
    · exact h.of_mem rfl
    · exact h
  · split <;> exact h.of_mem rfl

theorem completeOp_sound {k e : Nat} {o : Op} (h : SoundMem s) : SoundMem (completeOp s k e o) := by
  unfold completeOp
  refine leaveFrd_sound ?_
  split
  · exact acquireNow_sound (freeOp_sound (writeResult_sound (fillParts_sound h)))
  · exact freeOp_sound (writeResult_sound (fillParts_sound h))

theorem completeStore_sound {k e : Nat} {o : Op} (h : SoundMem s) : SoundMem (completeStore s k e o) := by
  unfold completeStore
  exact ite_sound (h.of_mem rfl) (ite_sound (freeOp_sound (storeEnter_sound h)) h)

theorem completeMaint_sound {k e : Nat} {o : Op} (h : SoundMem s) : SoundMem (completeMaint s k e o) := by
  unfold completeMaint
  split
  · exact ite_sound (ifInTurn_sound h (prefBegin_sound h)) (ite_sound (updCore_sound (sendLoadParts_sound h)) (freeOp_sound
      (prefFill_sound h)))
  · refine ite_sound (ite_sound (h.of_mem rfl) h) (ite_sound h ?_)
    split
    · exact h.of_mem rfl
    · next hr => exact ite_sound (((maintEffect_sound h).ok hr).of_mem rfl) (((maintEffect_sound h).ok hr).of_mem rfl)

theorem completeFetch_sound {k e : Nat} {o : Op} {n : BitVec 7} (h : SoundMem s) : SoundMem (completeFetch s k e o n) := by
  unfold completeFetch
  exact semIncr_sound (freeOp_sound (write_sound h))

theorem execLoadDataReturn_sound {k e : Nat} (h : SoundMem s) : NextSound (execLoadDataReturn k e s) := by
  unfold execLoadDataReturn
  refine ite_sound h ?_
  split
  · exact h
  · refine ite_sound h (ite_sound (completeStore_sound h) (ite_sound (completeMaint_sound h) (ite_sound (updCore_sound
      (sendLoadParts_sound h)) ?_)))
    split
    · exact h
    · exact h
    · exact h
    · exact ite_sound h (completeFetch_sound h)
    · exact ite_sound h (completeOp_sound h)

theorem opRetry_sound {fuel k e : Nat} (h : SoundMem s) : SoundMem (opRetry fuel s k e) := by
  induction fuel generalizing s with
  | zero => exact h
  | succ n ih =>
    unfold opRetry
    dsimp only
    split
    · split
      · exact ih (walked_sound h)
      · exact opFault_sound (walked_sound h)
    · split
      · split
        · exact h.of_mem rfl
        · exact opStart_sound h
      · exact opStart_sound h
      · exact opStart_sound h

theorem opAgain_sound {k e : Nat} (h : SoundMem s) : SoundMem (opAgain s k e) := by
  unfold opAgain
  dsimp only
  split
  · exact opRetry_sound h
  · exact ite_sound (opRetry_sound h) (ite_sound (completeStore_sound (opRetry_sound h)) (ite_sound (completeMaint_sound (opRetry_sound
      h)) (opRetry_sound h)))

/-! ### The vector unit -/

theorem pushV_sound {i : Instr} {vals : List Word} {pg : BitVec 3} (h : SoundMem s) : SoundMem (s.pushV i vals pg) := by
  unfold State.pushV
  exact ite_sound (h.of_mem rfl) (h.of_mem rfl)

theorem pushVMem_sound {i : Instr} {vals : List Word} {pg : BitVec 3} (h : SoundMem s) : SoundMem (s.pushVMem i vals pg) := by
  unfold State.pushVMem
  split
  · exact trap_sound h
  · exact pushV_sound h

theorem execSisect_sound {d a b : R5} {t : Ty} {opt : Bool} (h : SoundMem s) : NextSound (execSisect d a b t opt s) := by
  unfold execSisect
  dsimp only
  split
  · exact trap_sound h
  · exact ite_sound (trap_sound h) (pushV_sound h)

theorem grant_sound {cl g fuel : Nat} {used : List Nat} (h : SoundMem s) : SoundMem (grant cl g fuel used s).2 := by
  induction fuel generalizing s with
  | zero => exact h
  | succ n ih =>
    unfold grant
    dsimp only
    split
    · exact updCore_sound h
    · exact ih (updCluster_sound h)

theorem execVectorStart_sound {cl : Nat} (h : SoundMem s) : NextSound (execVectorStart cl s) := by
  unfold execVectorStart
  refine ite_sound h (foldl_sound (fun h => updCluster_sound h) ?_)
  exact List.foldlRecOn (motive := fun r : List Nat × State => SoundMem r.2) _ _ h fun _ hr _ _ => grant_sound hr

theorem vecRetire_sound {k : Nat} {m : Cmd} (h : SoundMem s) : SoundMem (vecRetire s k m) := h

theorem gatherAll_sound {k : Nat} {sup : Bool} {n : Nat} {l : List (Nat × Nat)} (h : SoundMem s) :
    OkHas (fun r => SoundMem r.2) (gatherAll s k sup n l) := by
  induction l generalizing s with
  | nil => exact h
  | cons e t ih =>
    unfold gatherAll
    split
    · trivial
    · next hr =>
      split
      · trivial
      · next ht =>
        have hu := (ih ((engRead_sound h).ok hr)).ok ht
        exact hu

theorem vgatEffect_sound {k : Nat} {m : Cmd} {d b : R5} {t : Ty} (h : SoundMem s) : SoundMem (vgatEffect s k m d b t) := by
  unfold vgatEffect
  dsimp only
  split
  · exact h.of_mem rfl
  · split
    · exact h.of_mem rfl
    · next hr => exact ((gatherAll_sound h).ok hr).of_mem rfl

theorem vsctEffect_sound {k : Nat} {m : Cmd} {d b : R5} {t : Ty} (h : SoundMem s) : SoundMem (vsctEffect s k m d b t) := by
  unfold vsctEffect
  dsimp only
  split
  · exact h.of_mem rfl
  · refine vecRetire_sound ?_
    refine foldl_sound (fun h => ?_) h
    split
    · next hr => exact (engWrite_sound h).ok hr
    · exact h

theorem mergeStep_sound {k : Nat} {sup opt : Bool} {w : Nat} {p : Merge} (h : SoundMem s) :
    SomeHas (OkHas fun r => SoundMem r.2) (mergeStep s k sup opt w p) := by
  unfold mergeStep
  split
  · trivial
  · split
    · trivial
    · next hr =>
      have hfirst := (engRead_sound h).ok hr
      split
      · trivial
      · next hr1 =>
        have hsecond := (engRead_sound hfirst).ok hr1
        split
        · exact hsecond
        · split
          · exact hsecond
          · split
            · split
              · trivial
              · next hr2 => exact (engWrite_sound hsecond).ok hr2
            · exact hsecond

theorem mergeAll_sound {k : Nat} {sup opt : Bool} {w fuel : Nat} {p : Merge} (h : SoundMem s) :
    SoundMem (mergeAll k sup opt w fuel p s).2.1 := by
  induction fuel generalizing p s with
  | zero => exact h
  | succ n ih =>
    unfold mergeAll
    split
    · exact h
    · exact h
    · next hr => exact ih ((mergeStep_sound h).some hr)

theorem sisectSteps_sound {k : Nat} {m : Cmd} {d a b : R5} {t : Ty} {opt : Bool} {n : Nat} (h : SoundMem s) :
    SoundMem (sisectSteps s k m d a b t opt n).2.2 := by
  unfold sisectSteps
  split
  next hr =>
    have hmerged := (mergeAll_sound h).snd_fst hr
    split <;> exact hmerged.of_mem rfl

theorem sisectEffect_sound {k : Nat} {m : Cmd} {d a b : R5} {t : Ty} {opt : Bool} (h : SoundMem s) :
    SoundMem (sisectEffect s k m d a b t opt) := by
  unfold sisectEffect
  split
  · next hr => exact (sisectSteps_sound h).snd_snd hr
  · next hr => exact ((sisectSteps_sound h).snd_snd hr).of_mem rfl

theorem sisectStop_sound {k : Nat} {m : Cmd} (h : SoundMem s) : SoundMem (sisectStop s k m) := by
  unfold sisectStop
  split
  · split
    · next hr => exact (sisectSteps_sound (spend_sound h)).snd_snd hr
    · next hr => exact ((sisectSteps_sound (spend_sound h)).snd_snd hr).of_mem rfl
  · exact h

theorem vecComplete_sound {k : Nat} {m : Cmd} (h : SoundMem s) : SoundMem (vecComplete s k m) := by
  unfold vecComplete
  split
  · exact vgatEffect_sound h
  · exact vsctEffect_sound h
  · exact sisectEffect_sound h
  · exact vecRetire_sound (ite_sound (h.of_mem rfl) (h.of_mem rfl))
  · exact h.of_mem rfl
  · exact h.of_mem rfl

theorem execVectorComplete_sound {cl g : Nat} (h : SoundMem s) : NextSound (execVectorComplete cl g s) := by
  unfold execVectorComplete
  refine ite_sound h ?_
  split
  · exact ifInTurn_sound h (vecComplete_sound h)
  · exact h

theorem vecReplay_sound {k : Nat} {m : Cmd} (h : SoundMem s) : SoundMem (vecReplay s k m) := by
  unfold vecReplay
  exact vecComplete_sound h

/-! ### The Mill -/

theorem execRpush_sound {d k b : R5} (h : SoundMem s) : NextSound (execRpush d k b s) := by
  unfold execRpush
  split
  · exact trap_sound h
  · exact ite_sound (trap_sound h) (ite_sound (h.of_mem rfl) (h.of_mem rfl))

theorem pushM_sound {i : Instr} {vals : List Word} {sh : Shape} {own : Option (Nat × Nat)} (h : SoundMem s) :
    SoundMem (s.pushM i vals sh own) := by
  unfold State.pushM
  exact ite_sound (h.of_mem rfl) (h.of_mem rfl)

theorem dense_sound {i : Instr} {acc k b : R5} {n : BitVec 3} {bk : Bool} (h : SoundMem s) : SoundMem (s.dense i acc k b n bk) := by
  unfold State.dense
  split
  · exact trap_sound h
  · refine ite_sound (trap_sound h) (ite_sound (trap_sound h) ?_)
    split
    · exact trap_sound h
    · exact pushM_sound h

theorem execMmt_sound {acc k b : R5} {n : BitVec 3} {z ha : Bool} {rm : Rm} (h : SoundMem s) :
    NextSound (execMmt acc k b n z ha rm s) := by
  unfold execMmt
  split
  · exact trap_sound h
  · refine ite_sound (trap_sound h) (ite_sound (trap_sound h) ?_)
    split
    · exact trap_sound h
    · exact ite_sound (trap_sound h) (pushM_sound h)

theorem execAclr_sound {acc k b : R5} (h : SoundMem s) : NextSound (execAclr acc k b s) := by
  unfold execAclr
  split
  · exact trap_sound h
  · exact ite_sound (trap_sound h) (pushM_sound h)

theorem execRpop_sound {k b : R5} (h : SoundMem s) : NextSound (execRpop k b s) := by
  unfold execRpop
  split
  · exact trap_sound h
  · split
    · exact trap_sound h
    · exact ite_sound (trap_sound h) (pushM_sound h)

theorem putHead_sound {k : Nat} {m : Cmd} (h : SoundMem s) : SoundMem (putHead s k m) := h

theorem millFault_sound {k : Nat} {m : Cmd} {c : Cause} {va : Nat} {info : BitVec 32} (h : SoundMem s) :
    SoundMem (millFault s k m c va info) := h

theorem startDense_sound {k : Nat} {m : Cmd} {d : Machine.Dense} (h : SoundMem s) : SoundMem (startDense s k m d) := by
  unfold startDense
  refine ite_sound h ?_
  dsimp only
  split <;> exact h.of_mem rfl

theorem abortMill_sound {k : Nat} {m : Cmd} {tiles : List Nat} {kdone : Nat} {pop : Core → Core} (h : SoundMem s) :
    SoundMem (abortMill s k m tiles kdone pop) := by
  unfold abortMill
  dsimp only
  split
  · exact ite_sound (hardError_sound (h.of_mem rfl)) (wake_sound (h.of_mem rfl))
  · exact wake_sound (h.of_mem rfl)

theorem denseStep_sound {k : Nat} {m : Cmd} {d : Machine.Dense} (h : SoundMem s) : SoundMem (denseStep s k m d) := by
  unfold denseStep
  split
  · exact h
  · exact ite_sound (h.of_mem rfl) (ite_sound (abortMill_sound h) (h.of_mem rfl))

theorem retireHead_sound {k : Nat} {m : Cmd} (h : SoundMem s) : SoundMem (retireHead s k m) := by
  unfold retireHead
  exact wake_sound (h.of_mem rfl)

theorem execMillCommandRetire_sound {k : Nat} (h : SoundMem s) : NextSound (execMillCommandRetire k s) := by
  unfold execMillCommandRetire
  refine ite_sound h ?_
  split
  · split
    · exact ite_sound (retireHead_sound (h.of_mem rfl)) h
    · exact h
  · exact h

theorem aclrHead_sound {k : Nat} (h : SoundMem s) : SoundMem (aclrHead s k) := by
  unfold aclrHead
  split
  · split
    · exact ite_sound h (retireHead_sound (h.of_mem rfl))
    · exact h
  · exact h

theorem rpopHead_sound {k : Nat} (h : SoundMem s) : SoundMem (rpopHead s k) := by
  unfold rpopHead
  split
  · split
    · split
      · exact ite_sound (retireHead_sound (h.of_mem rfl)) h
      · exact h
    · exact h
  · exact h

theorem millDiscard_sound {k : Nat} {m : Cmd} (h : SoundMem s) : SoundMem (millDiscard s k m) := by
  unfold millDiscard
  exact wake_sound (ite_sound (h.of_mem rfl) (h.of_mem rfl))

/-! ### The tree walk -/

theorem walk_sound {i : Instr} {acc k b : R5} {n : BitVec 3} (h : SoundMem s) : SoundMem (s.walk i acc k b n) := by
  unfold State.walk
  split
  · exact trap_sound h
  · dsimp only
    split
    · exact trap_sound h
    · exact pushM_sound h

theorem putRec_sound {k : Nat} {m : Cmd} {i : Nat} {r : WalkRec} (h : SoundMem s) : SoundMem (putRec s k m i r) := by
  unfold putRec
  exact writeN_sound h

theorem putLeaf_sound {k : Nat} {m : Cmd} {i v : Nat} (h : SoundMem s) : SoundMem (putLeaf s k m i v) := by
  unfold putLeaf
  exact writeN_sound h

theorem startWalk_sound {k : Nat} {m : Cmd} {w : Walk} (h : SoundMem s) : SoundMem (startWalk s k m w) := by
  unfold startWalk
  refine ite_sound h ?_
  dsimp only
  split
  · exact h.of_mem rfl
  · exact ite_sound (foldl_sound (fun h => putLeaf_sound (putRec_sound h)) (h.of_mem rfl)) (h.of_mem rfl)

theorem waveRead_sound {k : Nat} {sup : Bool} {va n : Nat} (h : SoundMem s) : OkHas (fun r => SoundMem r.2) (waveRead s k sup va n) := by
  unfold waveRead
  dsimp only
  generalize (if 0x400000 ≤ va ∧ va < 0x800000 then 0x800000 else if 0x1000000 ≤ va ∧ va < 2 ^ 47 then 2 ^ 47 else va) = top
  split
  · trivial
  · split
    · trivial
    · split
      · next hr => exact (engReadParts_sound (engReach_sound h)).snd_snd hr
      · trivial

theorem waveNodes_sound {k : Nat} {m : Cmd} {l : List Nat} (h : SoundMem s) : OkHas (fun r => SoundMem r.2) (waveNodes s k m l) := by
  induction l generalizing s with
  | nil => exact h
  | cons n t ih =>
    unfold waveNodes
    split
    · trivial
    · next hr =>
      split
      · trivial
      · next ht =>
        have hu := (ih ((waveRead_sound h).ok hr)).ok ht
        exact hu

theorem waveMatrix_sound {k : Nat} {m : Cmd} {base bytes rb fuel j : Nat} (h : SoundMem s) :
    OkHas (fun r => SoundMem r.2) (waveMatrix s k m base bytes rb fuel j) := by
  induction fuel generalizing s j with
  | zero => exact h
  | succ n ih =>
    unfold waveMatrix
    split
    · trivial
    · next hr =>
      split
      · trivial
      · next ht =>
        have hu := (ih ((waveRead_sound h).ok hr)).ok ht
        exact hu

theorem waveGroup_sound {k : Nat} {m : Cmd} {w : Walk} {cls : MClass} {nodes : List (Nat × Node)} {n : Nat} {rows : List Nat} {v : Wave}
    (h : SoundMem s) : OkHas (fun r => SoundMem r.2) (waveGroup s k m w cls nodes n rows v) := by
  unfold waveGroup
  split
  · exact h
  · dsimp only
    split
    · exact h
    · split
      · trivial
      · split
        · trivial
        · split
          · trivial
          · next hr => exact (waveMatrix_sound h).ok hr

theorem waveGroups_sound {k : Nat} {m : Cmd} {w : Walk} {cls : MClass} {nodes : List (Nat × Node)} {l : List (Nat × List Nat)} {v : Wave}
    (h : SoundMem s) : OkHas (fun r => SoundMem r.2) (waveGroups s k m w cls nodes l v) := by
  induction l generalizing s v with
  | nil => exact h
  | cons e t ih =>
    unfold waveGroups
    split
    · trivial
    · next hr => exact ih ((waveGroup_sound h).ok hr)

theorem planWave_sound {k : Nat} {m : Cmd} {w : Walk} {cls : MClass} {act : List Nat} {v : Wave} (h : SoundMem s) :
    OkHas (fun r => SoundMem r.2) (planWave s k m w cls act v) := by
  unfold planWave
  split
  · exact h
  · dsimp only
    split
    · trivial
    · next hr => exact waveGroups_sound ((waveNodes_sound h).ok hr)

theorem carryRow_sound {k : Nat} {m : Cmd} {w : Walk} {i : Nat} {vs : List Nat} (h : SoundMem s) :
    SoundMem (carryRow s k m w i vs) := by
  unfold carryRow
  exact write_sound h

theorem retireWalk_sound {k : Nat} {m : Cmd} {w : Walk} {keepSlot : Bool} (h : SoundMem s) :
    SoundMem (retireWalk s k m w keepSlot) := by
  unfold retireWalk
  split
  · exact report_sound (updCore_sound (retireHead_sound (h.of_mem rfl)))
  · exact retireHead_sound (h.of_mem rfl)

theorem undoWave_sound {k : Nat} {m : Cmd} (h : SoundMem s) : SoundMem (undoWave s k m) := by
  unfold undoWave
  exact foldl_sound (fun h => ite_sound (writeN_sound h) h) h

theorem wave_sound {k : Nat} {m : Cmd} {w : Walk} (h : SoundMem s) : SoundMem (wave s k m w) := by
  unfold wave
  split
  · exact h
  · refine ite_sound (ite_sound (abortMill_sound (undoWave_sound h)) (millFault_sound (orFlags_sound (undoWave_sound h)))) (ite_sound
      (ite_sound (abortMill_sound (undoWave_sound h)) (millFault_sound (orFlags_sound (undoWave_sound h)))) ?_)
    refine ite_sound (retireWalk_sound (putHead_sound (foldl_sound (fun h => putRec_sound h) h))) ?_
    split
    · exact ite_sound (abortMill_sound (undoWave_sound h)) (millFault_sound (orFlags_sound (undoWave_sound h)))
    · next hr =>
      have hplanned := ((planWave_sound (foldl_sound (fun h => putRec_sound h) h)).ok hr).of_mem rfl
      refine ite_sound (putHead_sound (foldl_sound (fun h => putRec_sound h) h)) (ite_sound (retireWalk_sound ?_) ?_)
      · exact putHead_sound (foldl_sound (fun h => carryRow_sound h) (foldl_sound (fun h => putLeaf_sound h)
          (foldl_sound (fun h => putRec_sound h) hplanned)))
      · exact putHead_sound (foldl_sound (fun h => carryRow_sound h) (foldl_sound (fun h => putLeaf_sound h)
          (foldl_sound (fun h => putRec_sound h) hplanned)))

theorem startHead_sound {k : Nat} (h : SoundMem s) : SoundMem (startHead s k) := by
  unfold startHead
  split
  · refine ite_sound h ?_
    split
    · exact startDense_sound h
    · split
      · exact startWalk_sound h
      · exact h
  · exact h

theorem oneStep_sound {k : Nat} (h : SoundMem s) : SoundMem (oneStep s k) := by
  unfold oneStep
  dsimp only
  split
  · exact startHead_sound h
  · split
    · exact ite_sound (denseStep_sound (startHead_sound h)) (startHead_sound h)
    · split
      · exact ite_sound (wave_sound (startHead_sound h)) (startHead_sound h)
      · split
        · exact aclrHead_sound (startHead_sound h)
        · exact rpopHead_sound (startHead_sound h)
        · exact startHead_sound h

theorem leaveTurn_sound {cl j n : Nat} (h : SoundMem s) : SoundMem (leaveTurn s cl j n) := h

theorem millTurn_sound {cl j n : Nat} (h : SoundMem s) : SoundMem (millTurn cl j n s) := by
  induction n generalizing s with
  | zero => exact leaveTurn_sound h
  | succ n ih => exact ite_sound (ih (oneStep_sound h)) (leaveTurn_sound h)

theorem execMillStep_sound {cl : Nat} (h : SoundMem s) : NextSound (execMillStep cl s) := by
  unfold execMillStep
  refine ite_sound h ?_
  split
  · exact h
  · exact ifInTurn_sound h (millTurn_sound h)

theorem turnStep_sound {k : Nat} {kind : Cmd → Bool} (h : SoundMem s) : SoundMem (turnStep s k kind) := by
  unfold turnStep
  split
  · exact ite_sound (leaveTurn_sound (oneStep_sound h)) h
  · exact h

theorem millReplay_sound {k : Nat} {m : Cmd} (h : SoundMem s) : SoundMem (millReplay s k m) := by
  unfold millReplay
  exact ite_sound (oneStep_sound (h.of_mem rfl)) (startHead_sound (h.of_mem rfl))

/-! ### The Carter -/

theorem execSrel_sound {a : R5} {n : BitVec 7} {sc : Scope} (h : SoundMem s) : NextSound (execSrel a n sc s) := by
  unfold execSrel
  refine ite_sound (trap_sound h) ?_
  split
  · next hr => exact ((releaseTry_sound h).snd hr).of_mem rfl
  · next hr => exact ite_sound (((releaseTry_sound h).snd hr).of_mem rfl) (ite_sound (trap_sound ((releaseTry_sound h).snd hr))
      (wake_sound (((releaseTry_sound h).snd hr).of_mem rfl)))

theorem execCpgo_sound {d : R5} (h : SoundMem s) : NextSound (execCpgo d s) := by
  unfold execCpgo
  split
  · exact trap_sound h
  · exact ite_sound (trap_sound h) (ite_sound (trap_sound h) (ite_sound (h.of_mem rfl) (h.of_mem rfl)))

theorem putCopy_sound {k : Nat} {m : Cmd} (h : SoundMem s) : SoundMem (putCopy s k m) := h

theorem sourceBits_sound {k : Nat} {r : CopyRegs} {a : Option (List Part)} (h : SoundMem s) : SoundMem (sourceBits s k r a).2.2 := by
  unfold sourceBits
  split
  · exact h
  · exact engReadParts_sound h

theorem arrive_sound {k : Nat} {r : CopyRegs} {rm : Rm} {ps : List Part} {v : Nat} (h : SoundMem s) :
    SoundMem (arrive s k r rm ps v) := by
  unfold arrive
  exact ite_sound (engWriteParts_sound h) (engWriteParts_sound (engReadParts_sound h))

theorem land_sound {k : Nat} {m : Cmd} {w : LateWrite} (h : SoundMem s) : SoundMem (land k m s w).2 := by
  unfold land
  split
  · dsimp only
    split <;> exact h
  · exact arrive_sound h

theorem settle_sound {k : Nat} {m : Cmd} {all : Bool} (h : SoundMem s) : SoundMem (settle s k m all).2 := by
  unfold settle
  dsimp only
  split
  · exact h
  · exact List.foldlRecOn (motive := fun r : Cmd × State => SoundMem r.2) _ _ (mk_sound h) fun _ hr _ _ => land_sound hr

theorem moveElem_sound {k : Nat} {m : Cmd} {e : Placed} (h : SoundMem s) : OkHas (fun r => SoundMem r.2) (moveElem s k m e) := by
  unfold moveElem
  dsimp only
  split
  · trivial
  · next hr =>
    have hread := (sourceBits_sound h).snd_snd hr
    split
    · exact hread
    · split
      · exact hread
      · split
        · exact land_sound hread
        · exact hread

theorem moveRow_sound {k : Nat} {l : List Placed} {m : Cmd} (h : SoundMem s) : SoundMem (moveRow k l m s).2.1 := by
  induction l generalizing m s with
  | nil => exact h
  | cons e t ih =>
    unfold moveRow
    split
    · exact h
    · next hr => exact ih ((moveElem_sound h).ok hr)

theorem writeTiles_sound {k ix : Nat} {l : List (List Byte)} {m : Cmd} (h : SoundMem s) :
    OkHas (fun r => SoundMem r.2) (writeTiles k ix l m s) := by
  induction l generalizing m s with
  | nil => exact h
  | cons t ts ih =>
    unfold writeTiles
    dsimp only
    split
    · exact h
    · split
      · trivial
      · exact ih (engWriteParts_sound (engReach_sound h))

theorem recordWrite_sound {k : Nat} {m : Cmd} {a st cause ix bytes : Nat} (h : SoundMem s) :
    OkHas SoundMem (recordWrite s k m a st cause ix bytes) := by
  unfold recordWrite
  dsimp only
  split
  · trivial
  · split
    · trivial
    · exact engWriteParts_sound (engReach_sound h)

theorem copyFault_sound {k : Nat} {m : Cmd} {e : CopyErr} (h : SoundMem s) : SoundMem (copyFault s k m e) := h

theorem copyFail_sound {k : Nat} {m : Cmd} {e : CopyErr} (h : SoundMem s) : SoundMem (copyFail s k m e) := by
  unfold copyFail
  refine copyFault_sound ?_
  split
  · exact settle_sound h
  · split
    · next hr => exact (recordWrite_sound (settle_sound h)).ok hr
    · exact ite_sound (report_sound (settle_sound h)) (settle_sound h)

/-- A step that is made only where there is something to make it of. -/
theorem getD_map_sound {α : Type} {o : Option α} {f : α → State} (hf : ∀ {x : α}, SoundMem (f x)) (h : SoundMem s) :
    SoundMem ((o.map f).getD s) := by
  cases o with
  | none => exact h
  | some x => exact hf

theorem rowWalk_sound {k : Nat} {r : CopyRegs} {row : List Elem} (h : SoundMem s) : SoundMem (rowWalk s k r row) := by
  unfold rowWalk
  refine foldl_sound (fun {s e} h => ?_) h
  have hs : SoundMem ((e.src.map fun a => engReach s k (vaOf a) (r.sty.w / 8)).getD s) := getD_map_sound (engReach_sound h) h
  exact getD_map_sound (engReach_sound hs) hs

theorem rowStep_sound {k : Nat} {m : Cmd} (h : SoundMem s) : SoundMem (rowStep s k m) := by
  have hw : SoundMem (rowWalk s k m.copy.regs (m.copy.regs.row (isGran k) m.prog)) := rowWalk_sound h
  unfold rowStep
  refine ite_sound (copyFail_sound hw) ?_
  split
  · exact copyFail_sound hw
  · split
    · next hr => exact copyFail_sound (ite_sound hw ((moveRow_sound hw).snd_fst hr))
    · next hr =>
      have ht := (moveRow_sound hw).snd_fst hr
      refine ite_sound ?_ (putCopy_sound (settle_sound ht))
      split
      split
      · exact copyFail_sound hw
      · next hx => exact putCopy_sound ((writeTiles_sound ht).ok hx)

theorem execCopyRow_sound {k : Nat} (h : SoundMem s) : NextSound (execCopyRow k s) := by
  unfold execCopyRow
  refine ite_sound h ?_
  split
  · exact h
  · exact ifInTurn_sound h (ite_sound (h.of_mem rfl) (rowStep_sound (h.of_mem rfl)))

theorem copyLeft_sound {k : Nat} {m : Cmd} (h : SoundMem s) : SoundMem (copyLeft s k m) := by
  unfold copyLeft
  exact ite_sound (h.of_mem rfl) h

theorem copyFinish_sound {k : Nat} {m : Cmd} (h : SoundMem s) : SoundMem (copyFinish s k m) := by
  unfold copyFinish
  refine copyLeft_sound ?_
  split
  · exact report_sound (ite_sound (h.of_mem rfl) (semIncr_sound (ite_sound (h.of_mem rfl) (h.of_mem rfl))))
  · exact ite_sound (h.of_mem rfl) (semIncr_sound (ite_sound (h.of_mem rfl) (h.of_mem rfl)))

theorem copyEnd_sound {k : Nat} {m : Cmd} (h : SoundMem s) : SoundMem (copyEnd s k m) := by
  unfold copyEnd
  split
  · exact copyFinish_sound h
  · dsimp only
    split
    · exact h.of_mem rfl
    · next hr => exact copyFinish_sound ((recordWrite_sound h).ok hr)

theorem execCopyComplete_sound {k : Nat} (h : SoundMem s) : NextSound (execCopyComplete k s) := by
  unfold execCopyComplete
  refine ite_sound h ?_
  split
  · exact h
  · exact ite_sound (ifInTurn_sound h (copyEnd_sound h)) h

theorem copyDiscard_sound {k : Nat} {m : Cmd} (h : SoundMem s) : SoundMem (copyDiscard s k m) := by
  unfold copyDiscard
  exact copyLeft_sound (h.of_mem rfl)

theorem copyReplay_sound {k : Nat} {m : Cmd} (h : SoundMem s) : SoundMem (copyReplay s k m) := by
  unfold copyReplay
  exact ite_sound (ite_sound (copyEnd_sound (h.of_mem rfl)) (rowStep_sound (h.of_mem rfl))) (h.of_mem rfl)

theorem wayJoin_sound {cl t : Nat} (h : SoundMem s) : SoundMem (wayJoin s cl t) := by
  unfold wayJoin
  exact foldl_sound (fun h => sendLine_sound h) (h.of_mem rfl)

theorem wayTake_sound {cl t : Nat} (h : SoundMem s) : SoundMem (wayTake s cl t) :=
  wayBegin_sound (updCluster_sound (mk_sound (memWf_filter _ _ h)))

theorem execWayChangeComplete_sound {cl : Nat} (h : SoundMem s) : NextSound (execWayChangeComplete cl s) := by
  unfold execWayChangeComplete
  dsimp only
  split
  · exact ite_sound h (ite_sound (ite_sound (wayJoin_sound h) h) (wayTake_sound (ite_sound (wayJoin_sound h) h)))
  · exact h

/-! ### Supersteps and the exchange lane -/

theorem trapBlocked_sound {k c : Nat} {z : Cause} (h : SoundMem s) : SoundMem (trapBlocked s k c z) := by
  unfold trapBlocked
  exact takeTrap_sound (h.of_mem rfl)

theorem execBell_sound {a : R5} {n : BitVec 7} (h : SoundMem s) : NextSound (execBell a n s) := by
  unfold execBell
  exact ite_sound (foldl_sound (fun h => ite_sound (trapBlocked_sound h) h) (h.of_mem rfl)) (ite_sound (trap_sound h) (h.of_mem rfl))

theorem execDone_sound {a : R5} {n : BitVec 7} (h : SoundMem s) : NextSound (execDone a n s) := by
  unfold execDone
  split
  · exact trap_sound h
  · refine ite_sound (trap_sound h) (ite_sound (trap_sound h) ?_)
    split
    · next hr => exact ((releaseTry_sound h).snd hr).of_mem rfl
    · next hr => exact ite_sound (((releaseTry_sound h).snd hr).of_mem rfl) (submit_sound ((releaseTry_sound h).snd hr))

theorem applyDone_sound {k n sender ctx stamp : Nat} (h : SoundMem s) : SoundMem (applyDone s k n sender ctx stamp) := by
  unfold applyDone
  exact ite_sound (submit_sound h) (wake_sound (h.of_mem rfl))

theorem execDoneArrival_sound {k : Nat} (h : SoundMem s) : NextSound (execDoneArrival k s) := by
  unfold execDoneArrival
  refine ite_sound h ?_
  split
  · exact applyDone_sound (h.of_mem rfl)
  · exact h

theorem emitLane_sound {p : LanePkt} {slot n : Nat} (h : SoundMem s) : SoundMem (emitLane s p slot n) := by
  unfold emitLane
  exact ite_sound (submit_sound (foldl_sound (fun h => h.of_mem rfl) (h.of_mem rfl))) (updCluster_sound (ite_sound (h.of_mem rfl)
    (foldl_sound (fun h => h.of_mem rfl) (h.of_mem rfl))))

theorem laneReport_sound {from' k c stamp : Nat} {z : Cause} {info : BitVec 32} (h : SoundMem s) :
    SoundMem (laneReport s from' k c stamp z info) := by
  unfold laneReport
  exact submit_sound h

theorem serveGathers_sound {cl : Nat} (h : SoundMem s) : SoundMem (serveGathers s cl) := by
  unfold serveGathers
  refine foldl_sound (fun h => ?_) h
  split
  · exact h.of_mem rfl
  · exact laneReport_sound (h.of_mem rfl)

theorem execSstep_sound (h : SoundMem s) : NextSound (execSstep s) := by
  unfold execSstep
  split
  · next hr => exact ((releaseTry_sound h).snd hr).of_mem rfl
  · next hr => exact ite_sound (((releaseTry_sound h).snd hr).of_mem rfl) (((releaseTry_sound h).snd hr).of_mem rfl)

theorem turnPhase_sound {cl : Nat} {bulk : Bool} (h : SoundMem s) : SoundMem (turnPhase s cl bulk) := by
  unfold turnPhase
  dsimp only
  split
  · exact rearm_sound (takeDomain_sound (rearm_sound (ite_sound h (ite_sound (h.of_mem rfl) (h.of_mem rfl)))))
  · exact ite_sound h (ite_sound (h.of_mem rfl) (h.of_mem rfl))

theorem stepContexts_sound {cl : Nat} (h : SoundMem s) : SoundMem (stepContexts s cl) := by
  unfold stepContexts
  exact foldl_sound (fun h => ite_sound (completeWait_sound (acquireNow_sound h)) h) h

theorem execSuperstepComplete_sound {cl : Nat} (h : SoundMem s) : NextSound (execSuperstepComplete cl s) := by
  unfold execSuperstepComplete
  exact ite_sound h (ite_sound (foldl_sound (fun h => ite_sound (trapBlocked_sound h) h) h) (ite_sound h (foldl_sound (fun h =>
    stepContexts_sound h) (foldl_sound (fun h => serveGathers_sound h) (foldl_sound (fun h => turnPhase_sound h) h)))))

theorem send_sound {i : Instr} {gd ga gb : Word} {p : Nat} {bad : Bool} (h : SoundMem s) : SoundMem (s.send i gd ga gb p bad) := by
  unfold State.send
  split
  · exact trap_sound h
  · refine ite_sound (h.of_mem rfl) ?_
    split
    · exact trap_sound h
    · exact h.of_mem rfl

theorem execXsendEmit_sound {cl : Nat} (h : SoundMem s) : NextSound (execXsendEmit cl s) := by
  unfold execXsendEmit
  refine ite_sound h ?_
  split
  · exact h
  · dsimp only
    split
    · exact report_sound (engWalk_sound (h.of_mem rfl))
    · split
      · next hr2 => exact ((engReadParts_sound (engWalk_sound (updCore_sound h))).snd_snd hr2).of_mem rfl
      · next hr2 => exact emitLane_sound ((engReadParts_sound (engWalk_sound (updCore_sound h))).snd_snd hr2)

theorem takeLane_sound {cl : Nat} {f : LanePkt → Bool} (h : SoundMem s) : SomeHas (fun r => SoundMem r.2) (takeLane s cl f) := by
  unfold takeLane
  cases (s.cluster cl).lane.find? f with
  | none => trivial
  | some p => exact updCluster_sound h

theorem execXsendDelivery_sound {cl : Nat} (h : SoundMem s) : NextSound (execXsendDelivery cl s) := by
  unfold execXsendDelivery
  refine ite_sound h ?_
  split
  · exact h
  · next hr => exact ite_sound (laneReport_sound ((takeLane_sound h).some hr)) (write_sound ((takeLane_sound h).some hr))

theorem execGatherRequestArrival_sound {cl : Nat} (h : SoundMem s) : NextSound (execGatherRequestArrival cl s) := by
  unfold execGatherRequestArrival
  refine ite_sound h ?_
  split
  · exact h
  · next hr => exact ite_sound (laneReport_sound ((takeLane_sound h).some hr)) (((takeLane_sound h).some hr).of_mem rfl)

theorem execGatherReplyEmit_sound {cl : Nat} (h : SoundMem s) : NextSound (execGatherReplyEmit cl s) := by
  unfold execGatherReplyEmit
  refine ite_sound h ?_
  split
  · exact h
  · exact emitLane_sound (h.of_mem rfl)

theorem execGatherReplyDelivery_sound {cl : Nat} (h : SoundMem s) : NextSound (execGatherReplyDelivery cl s) := by
  unfold execGatherReplyDelivery
  refine ite_sound h ?_
  split
  · exact h
  · next hr =>
      dsimp only
      split
      · exact laneReport_sound (updCluster_sound (foldl_sound (fun h => ite_sound h (write_sound h)) ((takeLane_sound h).some hr)))
      · exact updCluster_sound (foldl_sound (fun h => ite_sound h (write_sound h)) ((takeLane_sound h).some hr))

/-! ### Collectives -/

theorem coll_sound {i : Instr} {a b : R5} (h : SoundMem s) : SoundMem (s.coll i a b) := by
  unfold State.coll
  split
  · exact trap_sound h
  · exact ite_sound (trap_sound h) (ite_sound (trap_sound h) (ite_sound (trap_sound h) (ite_sound (h.of_mem rfl) (h.of_mem rfl))))

theorem collFault_sound {k stamp : Nat} {c : Cause} {va : Nat} {info : BitVec 32} (h : SoundMem s) :
    SoundMem (collFault s k stamp c va info) := by
  unfold collFault
  split
  · exact h
  · exact h.of_mem rfl

theorem collRead_sound {k : Nat} {sup : Bool} {va n : Nat} (h : SoundMem s) :
    OkHas (fun r => SoundMem r.2) (collRead s k sup va n) := by
  unfold collRead
  dsimp only
  split
  · trivial
  · split
    · next hr => exact (engReadParts_sound (engReach_sound h)).snd_snd hr
    · trivial

theorem readColl_sound {k : Nat} {m : Cmd} (h : SoundMem s) : OkHas (fun r => SoundMem r.2) (readColl s k m) := by
  unfold readColl
  split
  · trivial
  · next hr =>
    have ht := (collRead_sound h).ok hr
    dsimp only
    split
    · trivial
    · next hx =>
      have hu := ite_ok (fun r : List Byte × State => SoundMem r.2) hx (collRead_sound ht) ht
      exact hu

theorem closeGathering_sound {g : Gathering} (h : SoundMem s) : SoundMem (closeGathering s g) := by
  unfold closeGathering
  split
  · exact h
  · exact ite_sound (foldl_sound (fun h => collFault_sound h) (h.of_mem rfl)) h

theorem collBegin_sound {k : Nat} {m : Cmd} (h : SoundMem s) : SoundMem (collBegin s k m) := by
  unfold collBegin
  split
  · exact collFault_sound h
  · next hr =>
      dsimp only
      split
      · exact closeGathering_sound (((readColl_sound h).ok hr).of_mem rfl)
      · exact ((readColl_sound h).ok hr).of_mem rfl

theorem execCollectiveStart_sound {k : Nat} (h : SoundMem s) : NextSound (execCollectiveStart k s) := by
  unfold execCollectiveStart
  refine ite_sound h ?_
  split
  · exact h
  · exact ite_sound h (ifInTurn_sound h (collBegin_sound h))

theorem putMember_sound {g : Gathering} {c c' : Coll} (h : SoundMem s) : SoundMem (putMember s g c c') := h

theorem collGive_sound {k : Nat} {m : Cmd} {g : Gathering} {c : Coll} (h : SoundMem s) : SoundMem (collGive s k m g c) := by
  unfold collGive
  split
  · exact collFault_sound h
  · next hr => exact ((collRead_sound h).ok hr).of_mem rfl

theorem collTake_sound {k : Nat} {m : Cmd} {g : Gathering} {c : Coll} (h : SoundMem s) : SoundMem (collTake s k m g c) := by
  unfold collTake
  dsimp only
  split
  · exact collFault_sound (engReach_sound h)
  · split
    · exact report_sound (putMember_sound (engWriteParts_sound (engReach_sound h)))
    · exact putMember_sound (engWriteParts_sound (engReach_sound h))

theorem collEnd_sound {k : Nat} {m : Cmd} {g : Gathering} {c : Coll} (h : SoundMem s) : SoundMem (collEnd s k m g c) := by
  unfold collEnd
  exact ite_sound (h.of_mem rfl) (semIncr_sound (h.of_mem rfl))

theorem collStep_sound {k : Nat} {m : Cmd} (h : SoundMem s) : SoundMem (collStep s k m) := by
  unfold collStep
  split
  · exact h
  · exact ite_sound (collGive_sound h) (ite_sound (ite_sound (collTake_sound h) h) (ite_sound (collEnd_sound h) h))

theorem execCollectiveComplete_sound {k : Nat} (h : SoundMem s) : NextSound (execCollectiveComplete k s) := by
  unfold execCollectiveComplete
  refine ite_sound h ?_
  split
  · exact h
  · exact ite_sound (ifInTurn_sound h (collStep_sound h)) h

theorem collReplay_sound {k : Nat} {m : Cmd} (h : SoundMem s) : SoundMem (collReplay s k m) := by
  unfold collReplay
  exact ite_sound (collStep_sound (h.of_mem rfl)) (collBegin_sound (h.of_mem rfl))

/-! ### The open plane -/

theorem injectSpill_sound {i p : Nat} {m : Msg} {rest : List (Nat × Msg)} (h : SoundMem s) : SoundMem (injectSpill s i p m rest) := by
  unfold injectSpill
  exact ite_sound (h.of_mem rfl) (ite_sound h (h.of_mem rfl))

theorem execPacketInject_sound {i : Nat} (h : SoundMem s) : NextSound (execPacketInject i s) := by
  unfold execPacketInject
  refine ite_sound h ?_
  split
  · exact injectSpill_sound h
  · split
    · exact h
    · exact h.of_mem rfl

theorem tellDown_sound {m : Msg} (h : SoundMem s) : SoundMem (tellDown s m) := by
  unfold tellDown
  split
  · split
    · exact answerTo_sound (reportStorers_sound h)
    all_goals exact answerTo_sound h
  · exact h.of_mem rfl
  · exact h.of_mem rfl
  · exact answerTo_sound h
  · split
    · exact h.of_mem rfl
    · exact h
  · exact h
  · exact h

theorem dropSeq_sound {m : Msg} (h : SoundMem s) : SoundMem (dropSeq s m) := by
  unfold dropSeq
  refine ite_sound h ?_
  split
  · exact ite_sound h (h.of_mem rfl)
  · exact h.of_mem rfl

theorem dropMsg_sound {r : Nat} {m : Msg} (h : SoundMem s) : SoundMem (dropMsg s r m) := by
  unfold dropMsg
  exact tellDown_sound (dropSeq_sound (h.of_mem rfl))

theorem hopOver_sound {t p : Nat} {q : Pkt} (h : SoundMem s) : SoundMem (hopOver s t p q) := by
  unfold hopOver
  split
  · exact h
  · exact h.of_mem rfl

theorem advance_sound {t : Nat} {q : Pkt} (h : SoundMem s) : SoundMem (advance s t q) := by
  unfold advance
  refine ite_sound (dropMsg_sound (h.of_mem rfl)) (ite_sound (h.of_mem rfl) (ite_sound (dropMsg_sound (h.of_mem rfl)) ?_))
  split
  · exact h
  · exact hopOver_sound h

theorem execPacketHop_sound {r port rail : Nat} (h : SoundMem s) : NextSound (execPacketHop r port rail s) := by
  unfold execPacketHop
  refine ite_sound h ?_
  split
  · exact h
  · exact advance_sound h

theorem execPacketSuspect_sound {r port rail : Nat} (h : SoundMem s) : NextSound (execPacketSuspect r port rail s) := by
  unfold execPacketSuspect
  refine ite_sound h ?_
  dsimp only
  split
  · exact h
  · exact h.of_mem rfl

theorem execLanternCapture_sound (h : SoundMem s) : NextSound (execLanternCapture s) := by
  unfold execLanternCapture
  refine ite_sound h ?_
  dsimp only
  split
  · exact h
  · split
    · exact h
    · exact h.of_mem rfl

theorem execBywayEject_sound (h : SoundMem s) : NextSound (execBywayEject s) := by
  unfold execBywayEject
  refine ite_sound h ?_
  split
  · exact h
  · exact ite_sound (dropMsg_sound (h.of_mem rfl)) (ite_sound (h.of_mem rfl) (ite_sound (dropMsg_sound (h.of_mem rfl)) h))

theorem drainReserved_sound {i : Nat} (h : SoundMem s) : SoundMem (drainReserved s i) := by
  unfold drainReserved
  split
  · exact h
  · exact h.of_mem rfl

theorem execPacketDeliver_sound {i : Nat} (h : SoundMem s) : NextSound (execPacketDeliver i s) := by
  unfold execPacketDeliver
  refine ite_sound h ?_
  dsimp only
  split
  · exact drainReserved_sound h
  · exact ite_sound (deliverUnit_sound (updIface_sound (drainReserved_sound h))) (deliverUnit_sound (updIface_sound (updPair_sound
      (updIface_sound (drainReserved_sound h)))))

theorem execAckArrival_sound {i : Nat} (h : SoundMem s) : NextSound (execAckArrival i s) := by
  unfold execAckArrival
  refine ite_sound h ?_
  split
  · exact h
  · split <;> exact h.of_mem rfl

/-! ### The Reeve -/

theorem recFetch_sound {cl : Option Nat} {va n : Nat} (h : SoundMem s) : OkHas (fun r => SoundMem r.2) (recFetch s cl va n) := by
  unfold recFetch
  split
  · trivial
  · dsimp only
    split
    · trivial
    · split
      · next hr => exact (engReadParts_sound (recWalk_sound h)).snd_snd hr
      · trivial

theorem rejectRec_sound {r : TaskRec} {c : Cause} (h : SoundMem s) : SoundMem (rejectRec s r c) := by
  unfold rejectRec
  refine ite_sound (h.of_mem rfl) ?_
  split
  · next hr => exact (putStatus_sound h).ok hr
  · exact h.of_mem rfl

theorem enterRec_sound {r : TaskRec} {st : TaskState} (h : SoundMem s) : SoundMem (enterRec s r st) := by
  unfold enterRec
  dsimp only
  split
  · next hr => exact (putStatus_sound (mk_sound h)).ok hr
  · exact h.of_mem rfl

theorem spillWrite_sound {d ticket : Nat} (h : SoundMem s) : SoundMem (spillWrite s d ticket) := by
  unfold spillWrite
  dsimp only
  split
  · next hr => exact ((physWrite_sound (spend_sound h)).some hr).of_mem rfl
  · exact h.of_mem rfl

theorem undefinedRec_sound {r : TaskRec} (h : SoundMem s) : SoundMem (undefinedRec s r) := by
  unfold undefinedRec
  exact ite_sound (h.of_mem rfl) (h.of_mem rfl)

theorem enterSpawned_sound {r : TaskRec} {st : TaskState} {gb : Nat} (h : SoundMem s) : SoundMem (enterSpawned s r st gb) := by
  unfold enterSpawned
  exact updRec_sound (enterRec_sound h)

theorem acceptSpawned_sound {d : R5} {gb : Nat} {form : Bool} {r : TaskRec} (h : SoundMem s) :
    SoundMem (acceptSpawned s d gb form r) := by
  unfold acceptSpawned
  exact ite_sound (trap_sound (rejectRec_sound h)) (ite_sound (trap_sound (rejectRec_sound h)) (ite_sound (setG_sound
    (enterSpawned_sound h)) (ite_sound (setG_sound (spillWrite_sound (enterSpawned_sound h))) (trap_sound h))))

theorem launchRead_sound {kind ga gb : Nat} {d : R5} (h : SoundMem s) : SoundMem (launchRead s kind ga gb d) := by
  unfold launchRead
  dsimp only
  split
  · exact trap_sound (exchanged_sound (engReach_sound h))
  · split
    · next hr => exact trap_sound ((engReadParts_sound (exchanged_sound (engReach_sound h))).snd_snd hr)
    · next hr => exact acceptSpawned_sound ((engReadParts_sound (exchanged_sound (engReach_sound h))).snd_snd hr)

theorem launch_sound {kind : Nat} {d a b : R5} (h : SoundMem s) : SoundMem (s.launch kind d a b) := by
  unfold State.launch
  refine ite_sound (trap_sound h) (ite_sound (trap_sound h) (ite_sound (trap_sound h) ?_))
  split
  · next hr => exact ((releaseTry_sound h).snd hr).of_mem rfl
  · next hr => exact ite_sound (launchRead_sound ((releaseTry_sound h).snd hr)) (((releaseTry_sound h).snd hr).of_mem rfl)

theorem acceptHost_sound {q : HostQueue} {bs : List Byte} (h : SoundMem s) : SoundMem (acceptHost s q bs) := by
  unfold acceptHost
  exact ite_sound (rejectRec_sound h) (ite_sound (rejectRec_sound h) (ite_sound (rejectRec_sound h) (enterRec_sound h)))

theorem readQueue_sound {n : Nat} (h : SoundMem s) : SoundMem (readQueue s n) := by
  unfold readQueue
  dsimp only
  split
  · exact h.of_mem rfl
  · next hr =>
      split
      · exact ((recFetch_sound (mk_sound h)).ok hr).of_mem rfl
      · next hr1 => exact acceptHost_sound ((recFetch_sound ((recFetch_sound (mk_sound h)).ok hr)).ok hr1)

theorem execSpillRefill_sound {die : Nat} (h : SoundMem s) : NextSound (execSpillRefill die s) := by
  unfold execSpillRefill
  refine ite_sound h ?_
  split
  · exact h
  · refine ite_sound ?_ ?_
    · refine updRec_sound ?_
      split
      · exact llcReads_sound h
      · exact h
    · refine undefinedRec_sound ?_
      split
      · exact llcReads_sound h
      · exact h

theorem renewReserve_sound {p : Nat} (h : SoundMem s) : SoundMem (renewReserve s p) := by
  unfold renewReserve
  split
  · exact h.of_mem rfl
  · refine ite_sound h (ite_sound (h.of_mem rfl) ?_)
    split <;> exact h.of_mem rfl

theorem zeroRange_sound {lo hi : Nat} (h : SoundMem s) : SoundMem (zeroRange s lo hi) := memWf_filter _ _ h

theorem spareIn_sound {cl : Nat} (h : SoundMem s) : SoundMem (spareIn s cl) := by
  unfold spareIn
  split
  · exact h
  · exact updCluster_sound (updCore_sound (zeroRange_sound h))

theorem startCore_sound {r : TaskRec} {image : List Byte} {args : Nat} {q : Seat} (h : SoundMem s) :
    SoundMem (startCore s r image args q) := by
  unfold startCore
  exact ite_sound (updCore_sound (mk_sound (write_sound (exchanged_sound (ite_sound (zeroRange_sound (ite_sound h (spareIn_sound h)))
    (ite_sound h (spareIn_sound h))))))) (rearm_sound (updCore_sound (mk_sound (write_sound (exchanged_sound (ite_sound
    (zeroRange_sound (ite_sound h (spareIn_sound h))) (ite_sound h (spareIn_sound h))))))))

theorem takeSnapshot_sound {r : TaskRec} {block : List Byte} (h : SoundMem s) :
    OkHas (fun r => SoundMem r.2.2) (takeSnapshot s r block) := by
  unfold takeSnapshot
  split
  · exact h
  · split
    · exact h
    · split
      · exact h
      · dsimp only
        split
        · next hr => exact (physWrite_sound h).some hr
        · trivial

theorem loadRecord_sound {r : TaskRec} (h : SoundMem s) : OkHas (fun r => SoundMem r.2.2.2) (loadRecord s r) := by
  unfold loadRecord
  split
  · trivial
  · next hr =>
    have ht := (recFetch_sound h).ok hr
    split
    · trivial
    · next hx =>
      have hu := ite_ok (fun r : List Byte × State => SoundMem r.2) hx ht (recFetch_sound ht)
      split
      · trivial
      · next hy => exact (takeSnapshot_sound hu).ok hy

theorem placeRec_sound {r : TaskRec} {l : List (List Nat)} (h : SoundMem s) : SoundMem (placeRec s r l) := by
  unfold placeRec
  split
  · next hr =>
      dsimp only
      split
      · refine dropRec_sound ?_
        split
        · next hr2 => exact (putStatus_sound (mk_sound ((putStatus_sound h).ok hr))).ok hr2
        · exact ((putStatus_sound h).ok hr).of_mem rfl
      · next hr1 => exact foldl_sound (fun h => startCore_sound h) (((loadRecord_sound (mk_sound ((putStatus_sound h).ok hr))).ok
          hr1).of_mem rfl)
  · dsimp only
    split
    · refine dropRec_sound ?_
      split
      · next hr2 => exact (putStatus_sound (mk_sound h)).ok hr2
      · exact h.of_mem rfl
    · next hr1 => exact foldl_sound (fun h => startCore_sound h) (((loadRecord_sound (mk_sound h)).ok hr1).of_mem rfl)

theorem execTaskPlace_sound {die : Nat} (h : SoundMem s) : NextSound (execTaskPlace die s) := by
  unfold execTaskPlace
  refine ite_sound h ?_
  dsimp only
  split
  · exact foldl_sound (fun h => renewReserve_sound h) h
  · exact placeRec_sound (mk_sound (foldl_sound (fun h => renewReserve_sound h) h))

theorem execGranaryProgramPlace_sound {gran : Nat} (h : SoundMem s) : NextSound (execGranaryProgramPlace gran s) := by
  unfold execGranaryProgramPlace
  refine ite_sound h ?_
  split
  · exact h
  · exact placeRec_sound h

theorem lateAppend_sound {r : TaskRec} (h : SoundMem s) : SoundMem (lateAppend s r) := by
  unfold lateAppend
  refine ite_sound (h.of_mem rfl) ?_
  split
  · exact h.of_mem rfl
  · next hr => exact ((physWrite_sound h).some hr).of_mem rfl

theorem markLate_sound {r : TaskRec} (h : SoundMem s) : SoundMem (markLate s r) := by
  unfold markLate
  exact raise_sound (lateAppend_sound (h.of_mem rfl))

theorem execTaskLate_sound {ticket : Nat} (h : SoundMem s) : NextSound (execTaskLate ticket s) := by
  unfold execTaskLate
  refine ite_sound h ?_
  split
  · exact h
  · exact ite_sound (markLate_sound (putFlags_sound h)) h

theorem execTlateSet_sound {d a : R5} (h : SoundMem s) : NextSound (execTlateSet d a s) := by
  unfold execTlateSet
  refine ite_sound (trap_sound h) (setG_sound ?_)
  split
  · exact h.of_mem rfl
  · exact h

theorem tendStatus_sound {r : TaskRec} {exit : Nat} (h : SoundMem s) : OkHas SoundMem (tendStatus s r exit) := by
  unfold tendStatus
  dsimp only
  split
  · trivial
  · next hr => exact ite_sound (markLate_sound ((putStatus_sound h).ok hr)) ((putStatus_sound h).ok hr)

theorem fillOuter_sound {pa exit : Nat} (h : SoundMem s) : SoundMem (fillOuter s pa exit).2 := by
  unfold fillOuter
  dsimp only
  split
  · exact writeN_sound (writeN_sound (h.of_mem rfl))
  · split <;> exact h.of_mem rfl

theorem tendFuture_sound {r : TaskRec} {exit : Nat} (h : SoundMem s) : OkHas SoundMem (tendFuture s r exit) := by
  have flagged {s : State} {r : TaskRec} (h : SoundMem s) : OkHas SoundMem
      (match recWrite s (recTables s r) (r.status + 4) (toBytes 4 r.flags) with
        | .ok s => Except.ok (s.updRec r.ticket fun _ => r)
        | .error c => .error c) := by
    split
    · next hr => exact updRec_sound ((recWrite_sound h).ok hr)
    · trivial
  have filled {pa : Nat} : SoundMem
      (match homeAt pa with
        | .host | .peer .. => fillOuter s pa exit
        | _ => fillFuture (llcTouch (s.exchanged 512 (homeTile pa)) pa .modify true) (homeTile pa) pa exit false).2 := by
    split
    · exact fillOuter_sound h
    · exact fillOuter_sound h
    · exact fillFuture_sound (llcTouch_sound (exchanged_sound h))
  unfold tendFuture
  split
  · exact h
  · split
    · trivial
    · split
      · trivial
      · dsimp only
        split
        · next hr => exact filled.snd hr
        · next hr => exact flagged (filled.snd hr)
        · next hr => exact flagged (filled.snd hr)

theorem freeTask_sound {k : Nat} (h : SoundMem s) : SoundMem (freeTask s k) := by
  unfold freeTask
  exact ite_sound (h.of_mem rfl) (rearm_sound (h.of_mem rfl))

theorem tendSingle_sound {k : Nat} {r : TaskRec} (h : SoundMem s) : SoundMem (tendSingle s k r) := by
  unfold tendSingle
  refine ite_sound ?_ ?_
  · split
    · exact h.of_mem rfl
    · next hr => exact ((tendStatus_sound h).ok hr).of_mem rfl
  · split
    · exact h.of_mem rfl
    · next hr => exact dropRec_sound (freeTask_sound ((tendFuture_sound h).ok hr))

theorem gangEnd_sound {r : TaskRec} (h : SoundMem s) : SoundMem (gangEnd s r) := by
  have hs : SoundMem (match tendStatus s r r.exit.toNat with
      | .ok s => s
      | .error _ => s.countRej r.die) := by
    split
    · next hr => exact (tendStatus_sound h).ok hr
    · exact countRej_sound h
  unfold gangEnd
  refine dropRec_sound ?_
  split
  · next hr => exact (tendFuture_sound hs).ok hr
  · exact countRej_sound hs

theorem tendGang_sound {k : Nat} {r : TaskRec} (h : SoundMem s) : SoundMem (tendGang s k r) := by
  unfold tendGang
  exact ite_sound (gangEnd_sound (updRec_sound (freeTask_sound h))) (updRec_sound (freeTask_sound h))

theorem tendRelease_sound {k : Nat} {sc : Scope} (h : SoundMem s) : SoundMem (tendRelease s k sc) := by
  unfold tendRelease
  refine ite_sound h ?_
  split
  · next hr => exact (releaseTry_sound h).snd hr
  · next hr => exact ((releaseTry_sound h).snd hr).of_mem rfl

theorem execTendRetire_sound {k : Nat} (h : SoundMem s) : NextSound (execTendRetire k s) := by
  unfold execTendRetire
  refine ite_sound h ?_
  split
  · exact ite_sound (tendRelease_sound h) (freeTask_sound h)
  · exact ite_sound (tendRelease_sound h) (ite_sound (tendGang_sound h) (tendSingle_sound h))

theorem censusWrite_sound {es : List (Nat × Nat)} (h : SoundMem s) : SoundMem (censusWrite s es) := by
  unfold censusWrite
  refine ite_sound (h.of_mem rfl) ?_
  split
  · exact h.of_mem rfl
  · next hr => exact ((physWrite_sound h).some hr).of_mem rfl

/-! ### The Curfew -/

theorem finishWave_sound {k fuel : Nat} (h : SoundMem s) : SoundMem (finishWave k fuel s) := by
  induction fuel generalizing s with
  | zero => exact h
  | succ n ih =>
    unfold finishWave
    split
    · exact h
    · exact ite_sound (ih (oneStep_sound h)) h

theorem haltUnits_sound {k : Nat} (h : SoundMem s) : SoundMem (haltUnits s k) := by
  unfold haltUnits
  exact updCore_sound (foldl_sound (fun h => sisectStop_sound h) (finishWave_sound h))

theorem haltCore_sound {k : Nat} (h : SoundMem s) : SoundMem (haltCore s k) := by
  unfold haltCore
  exact updCore_sound (updCluster_sound (spend_sound (haltUnits_sound h)))

theorem areaPut_sound {a : Nat} {bs : List Byte} (h : SoundMem s) : SoundMem (areaPut s a bs) := by
  refine List.foldlRecOn (motive := fun m => memWf m = true) _ _ h fun m hm e _ => ?_
  split
  · exact memSet_wf m _ _ hm
  · exact hm

theorem areaTouch_sound {a : Nat} {im : NetImage} {write : Bool} (h : SoundMem s) : SoundMem (areaTouch s a im write) := by
  unfold areaTouch
  exact foldl_sound (fun h => ite_sound (llcWrite_sound h) (llcTouch_sound h)) h

theorem writeArea_sound {a : Nat} {im : NetImage} (h : SoundMem s) : SoundMem (writeArea s a im) := by
  have hb : SoundMem { areaTouch s a im true with mem := blankArea (areaTouch s a im true) a } :=
    mk_sound (memWf_filter _ _ (areaTouch_sound h))
  exact foldl_sound (fun h => areaPut_sound h) (foldl_sound (fun h => areaPut_sound h) hb)

theorem clearNet_sound {p : Nat} (h : SoundMem s) : SoundMem (clearNet s p) := h

theorem curfewDone_sound {p : Nat} {resume : Bool} (h : SoundMem s) : SoundMem (curfewDone s p resume) := by
  unfold curfewDone
  exact raise_sound (h.of_mem rfl)

theorem execCurfewStop_sound {p : Nat} (h : SoundMem s) : NextSound (execCurfewStop p s) := by
  unfold execCurfewStop
  refine ite_sound h ?_
  split
  · exact h
  · exact ite_sound h (curfewDone_sound (mk_sound (writeArea_sound (clearNet_sound (spend_sound (foldl_sound (fun h => h.of_mem rfl)
      (foldl_sound (fun h => haltCore_sound h) h)))))))

theorem loadArea_sound {p a : Nat} (h : SoundMem s) : SoundMem (loadArea s p a) := by
  unfold loadArea
  split
  · exact h
  · exact foldl_sound (fun h => h.of_mem rfl) (foldl_sound (fun h => h.of_mem rfl) (mk_sound (foldl_sound (fun h => h.of_mem rfl)
      (mk_sound (areaTouch_sound h)))))

theorem resumeCore_sound {k : Nat} (h : SoundMem s) : SoundMem (resumeCore s k) := by
  unfold resumeCore
  exact wake_sound (h.of_mem rfl)

theorem execCurfewResume_sound {p : Nat} (h : SoundMem s) : NextSound (execCurfewResume p s) := by
  unfold execCurfewResume
  refine ite_sound h ?_
  split
  · exact h
  · exact ite_sound (mk_sound (loadArea_sound h)) (ite_sound h (foldl_sound (fun h => resumeCore_sound h) (curfewDone_sound h)))

/-! ### Save, restore and TLB invalidation -/

theorem engineTake_sound {i : Instr} {vals : List Word} {cl off id : Nat} (h : SoundMem s) :
    SoundMem (engineTake s i vals cl off id) := by
  unfold engineTake
  split <;> exact h.of_mem rfl

theorem execSave_sound {d a b : R5} (h : SoundMem s) : NextSound (execSave d a b s) := by
  unfold execSave
  refine privileged_sound h ?_
  intro s h
  refine ite_sound (trap_sound h) (ite_sound (trap_sound h) (ite_sound (trap_sound h) (ite_sound (trap_sound h) (ite_sound (h.of_mem
    rfl) ?_))))
  split
  · exact h.of_mem rfl
  · exact engineTake_sound (h.of_mem rfl)

theorem execSaveRes_sound {d a b : R5} (h : SoundMem s) : NextSound (execSaveRes d a b s) := by
  unfold execSaveRes
  refine privileged_sound h ?_
  intro s h
  refine ite_sound (trap_sound h) (ite_sound (trap_sound h) ?_)
  split
  · exact ite_sound (trap_sound h) (ite_sound (h.of_mem rfl) (ite_sound (h.of_mem rfl) (engineTake_sound h)))
  · exact trap_sound h
  · exact trap_sound h

theorem execRest_sound {d a b : R5} (h : SoundMem s) : NextSound (execRest d a b s) := by
  unfold execRest
  refine privileged_sound h ?_
  intro s h
  refine ite_sound (trap_sound h) (ite_sound (trap_sound h) (ite_sound (trap_sound h) (ite_sound (trap_sound h) (ite_sound ?_ (h.of_mem
    rfl)))))
  split
  · exact trap_sound h
  · next hr => exact ite_sound (trap_sound ((engRead_sound h).ok hr)) (engineTake_sound ((engRead_sound h).ok hr))

theorem saveChunks_sound {k ga : Nat} {im : Image} {kept : List Byte} {fuel off : Nat} (h : SoundMem s) :
    SoundMem (saveChunks k ga im kept fuel off s).1 := by
  induction fuel generalizing off s with
  | zero => exact h
  | succ n ih =>
    unfold saveChunks
    dsimp only
    split
    · exact h
    · split
      · exact engReach_sound h
      · exact ih (engWriteParts_sound (engReach_sound h))

theorem saveHeader_sound {k ga : Nat} {im : Image} (h : SoundMem s) : SoundMem (saveHeader k ga im s).1 := by
  unfold saveHeader
  dsimp only
  split
  · exact engReach_sound h
  · exact engWriteParts_sound (engReach_sound h)

theorem engineFault_sound {k e : Nat} {o : Op} {c : Cause} {va off : Nat} {info : BitVec 32} (h : SoundMem s) :
    SoundMem (engineFault s k e o c va off info) := h

theorem saveRun_sound {cl k e off id : Nat} {o : Op} (h : SoundMem s) : SoundMem (saveRun s cl k e off id o) := by
  unfold saveRun
  dsimp only
  split
  · exact updCluster_sound h
  · next im _ =>
    have hc : SoundMem (saveChunks k (o.vals.getD 1 0).toNat im (keptBytes s cl im.kept) (im.size / 256 + 1) off s).1 := saveChunks_sound h
    have hh : SoundMem (match saveChunks k (o.vals.getD 1 0).toNat im (keptBytes s cl im.kept) (im.size / 256 + 1) off s with
        | (s, none) => saveHeader k (o.vals.getD 1 0).toNat im s
        | r => r).1 := by
      split
      · next ht => exact saveHeader_sound (hc.fst ht)
      · exact hc
    split
    · next hr => exact updCore_sound (updCore_sound (updCluster_sound (hh.fst hr)))
    · next hr =>
      have ht := hh.fst hr
      exact ite_sound (engineFault_sound (updCluster_sound ht)) (engineFault_sound (updCluster_sound ht))

theorem restChunks_sound {k ga size fuel off : Nat} (h : SoundMem s) : OkHas (fun r => SoundMem r.2) (restChunks k ga size fuel off s) := by
  induction fuel generalizing off s with
  | zero => exact h
  | succ n ih =>
    unfold restChunks
    dsimp only
    split
    · exact h
    · split
      · trivial
      · split
        · trivial
        · next hr =>
          split
          · trivial
          · next ht =>
            have hu := (ih ((engReadParts_sound (engReach_sound h)).snd_snd hr)).ok ht
            exact hu

theorem restoreCore_sound {t : Nat} {im : Image} (h : SoundMem s) : SoundMem (restoreCore s t im) := by
  unfold restoreCore
  refine rearm_sound (write_sound (write_sound ?_))
  split <;> exact h.of_mem rfl

theorem freeContexts_sound {t : Nat} (h : SoundMem s) : SoundMem (freeContexts s t) := by
  unfold freeContexts
  exact rearm_sound (h.of_mem rfl)

theorem restoreKept_sound {cl : Nat} {l : List (Nat × Nat)} {bs : List Byte} (h : SoundMem s) : SoundMem (restoreKept s cl l bs) := by
  induction l generalizing s bs with
  | nil => exact h
  | cons r t ih => exact ih (write_sound h)

theorem fillScratch_sound {cl : Nat} (h : SoundMem s) : SoundMem (fillScratch s cl) := by
  unfold fillScratch
  exact mk_sound (write_sound h)

theorem restoreCluster_sound {cl : Nat} {c : Cluster} {kept : List (Nat × Nat)} {bs : List Byte} (h : SoundMem s) :
    SoundMem (restoreCluster s cl c kept bs) := by
  unfold restoreCluster
  exact rearm_sound (restoreKept_sound (fillScratch_sound (updCluster_sound (wayTake_sound (wayJoin_sound (rearm_sound h))))))

theorem restRun_sound {cl k e : Nat} {o : Op} (h : SoundMem s) : SoundMem (restRun s cl k e o) := by
  unfold restRun
  dsimp only
  split
  · exact updCluster_sound (engineFault_sound (freeContexts_sound h))
  · next hr =>
      split
      · exact updCluster_sound (engineFault_sound (freeContexts_sound ((engRead_sound h).ok hr)))
      · next hr1 =>
          split
          · exact updCluster_sound (updCore_sound (ite_sound (fillScratch_sound (freeContexts_sound ((restChunks_sound ((engRead_sound
              h).ok hr)).ok hr1))) (freeContexts_sound ((restChunks_sound ((engRead_sound h).ok hr)).ok hr1))))
          · refine updCluster_sound (updCore_sound (ite_sound (restoreCore_sound ((restChunks_sound ((engRead_sound h).ok hr)).ok hr1))
              ?_))
            split
            · exact restoreCluster_sound (restoreCore_sound ((restChunks_sound ((engRead_sound h).ok hr)).ok hr1))
            · exact fillScratch_sound (restoreCore_sound ((restChunks_sound ((engRead_sound h).ok hr)).ok hr1))

theorem execSaveEngineFinish_sound {cl : Nat} (h : SoundMem s) : NextSound (execSaveEngineFinish cl s) := by
  unfold execSaveEngineFinish
  refine ite_sound h ?_
  split
  · split
    · exact h.of_mem rfl
    · refine ifInTurn_sound h ?_
      split
      · exact restRun_sound h
      · exact saveRun_sound h
  · exact h
  · exact h

theorem engineReplay_sound {k e : Nat} {o : Op} (h : SoundMem s) : SoundMem (engineReplay s k e o) := by
  unfold engineReplay
  dsimp only
  split
  · refine ite_sound (h.of_mem rfl) ?_
    split
    · exact h.of_mem rfl
    · exact ite_sound (h.of_mem rfl) (h.of_mem rfl)
  · exact ite_sound (h.of_mem rfl) (h.of_mem rfl)
  · exact ite_sound (h.of_mem rfl) (h.of_mem rfl)
  · exact h.of_mem rfl

theorem execTlbinv_sound {d a : R5} {n : BitVec 7} {sc : Scope} (h : SoundMem s) : NextSound (execTlbinv d a n sc s) := by
  unfold execTlbinv
  refine privileged_sound h ?_
  intro s h
  refine ite_sound (trap_sound h) ?_
  split
  · next hr => exact ((releaseTry_sound h).snd hr).of_mem rfl
  · next hr => exact ((releaseTry_sound h).snd hr).of_mem rfl

theorem flushRanges_sound {cl : Nat} {rs : List (Nat × Nat)} (h : SoundMem s) : SoundMem (flushRanges s cl rs) := by
  unfold flushRanges
  exact updCluster_sound (foldl_sound (fun h => sendLine_sound h) (foldl_sound (fun h => updCore_sound (foldl_sound (fun h =>
    l1Home_sound h) h)) (unkeep_sound h)))

theorem tlbDrop_sound {t : TlbInv} (h : SoundMem s) : SoundMem (tlbDrop s t) := by
  unfold tlbDrop
  exact foldl_sound (fun h => ite_sound (h.of_mem rfl) (updCluster_sound (exchanged_sound h))) h

theorem tlbFlush_sound {t : TlbInv} (h : SoundMem s) : SoundMem (tlbFlush s t) := by
  unfold tlbFlush
  exact ite_sound (foldl_sound (fun h => h.of_mem rfl) (foldl_sound (fun h => flushRanges_sound h) h)) (foldl_sound (fun h =>
    flushRanges_sound h) h)

theorem execTlbinvComplete_sound {cl : Nat} (h : SoundMem s) : NextSound (execTlbinvComplete cl s) := by
  unfold execTlbinvComplete
  refine ite_sound h ?_
  split
  · exact h
  · exact ite_sound (ifInTurn_sound h (updCluster_sound (tlbDrop_sound h))) (ite_sound (ite_sound (updCluster_sound (tlbFlush_sound h))
      h) (ite_sound h (semIncr_sound (h.of_mem rfl))))

/-! ### The Gleaner -/

theorem execGlset_sound {d a b : R5} (h : SoundMem s) : NextSound (execGlset d a b s) := by
  unfold execGlset
  exact ite_sound (trap_sound h) (ite_sound (trap_sound h) (ite_sound (trap_sound h) (ite_sound (trap_sound h) (h.of_mem rfl))))

theorem clearMap_sound {k : Nat} {g : Gleaner} (h : SoundMem s) : SoundMem (clearMap s k g) := by
  unfold clearMap
  exact ite_sound (write_sound h) (write_sound (write_sound h))

theorem execGlrun_sound {a : R5} {len : BitVec 9} (h : SoundMem s) : NextSound (execGlrun a len s) := by
  unfold execGlrun
  exact ite_sound (trap_sound h) (ite_sound (trap_sound h) (ite_sound (trap_sound h) (ite_sound (goTo_sound (updMy_sound
    (clearMap_sound h))) (setG_sound (updMy_sound (clearMap_sound h))))))

theorem glStep_sound (h : SoundMem s) : SoundMem (glStep s) := by
  unfold glStep
  exact ite_sound (h.of_mem rfl) (h.of_mem rfl)

theorem foot_sound {cells : List Nat} (h : SoundMem s) : SoundMem (s.foot cells) := by
  unfold State.foot
  exact ite_sound (trap_sound h) (ite_sound (trap_sound h) (ite_sound (trap_sound h) (ite_sound (h.of_mem rfl) (ite_sound (glStep_sound
    (h.of_mem rfl)) (h.of_mem rfl)))))

/-! ### Reports and interrupts -/

theorem leaveAcq_sound {k c : Nat} (h : SoundMem s) : SoundMem (leaveAcq s k c) := by
  unfold leaveAcq
  split
  · exact wakeOne_sound h
  · exact h

theorem takeReport_sound {k c : Nat} (h : SoundMem s) : SoundMem (takeReport s k c) := by
  unfold takeReport
  refine ite_sound h ?_
  split
  · exact h
  · exact takeTrap_sound (updCtx_sound (leaveAcq_sound h))

theorem takeInterrupt_sound {k : Nat} (h : SoundMem s) : SoundMem (takeInterrupt s k) := by
  unfold takeInterrupt
  exact ite_sound (takeTrap_sound (updCtx_sound (leaveAcq_sound (updCore_sound (wake_sound h))))) (wake_sound h)

/-! ### The return from a trap -/

theorem replayOp_sound {k e : Nat} {o : Op} (h : SoundMem s) : SoundMem (replayOp s k e o) := by
  unfold replayOp
  split
  · exact engineReplay_sound h
  · exact engineReplay_sound h
  · exact engineReplay_sound h
  · exact opAgain_sound (h.of_mem rfl)

theorem replayCmd_sound {k e : Nat} {m : Cmd} {discard : Bool} (h : SoundMem s) : SoundMem (replayCmd s k e m discard) := by
  unfold replayCmd
  split
  · exact ite_sound (h.of_mem rfl) (vecReplay_sound h)
  · exact ite_sound (millDiscard_sound h) (millReplay_sound h)
  · exact ite_sound (copyDiscard_sound h) (copyReplay_sound h)
  · exact ite_sound (h.of_mem rfl) (collReplay_sound h)

theorem replayEntry_sound {k c : Nat} {skip : Option Nat} {e : Nat} (h : SoundMem s) : SoundMem (replayEntry k c skip s e) := by
  unfold replayEntry
  refine ite_sound ?_ ?_
  · split
    · exact ite_sound (h.of_mem rfl) (replayOp_sound h)
    · exact h
  · split
    · exact replayCmd_sound h
    · exact h

theorem blockFrd_sound {k c : Nat} (h : SoundMem s) : SoundMem (blockFrd s k c) := by
  unfold blockFrd
  split
  · exact h.of_mem rfl
  · exact h

theorem returnFromTrap_sound {k c : Nat} (h : SoundMem s) : SoundMem (returnFromTrap s k c) := by
  unfold returnFromTrap
  exact ite_sound (takeReport_sound (updCtx_sound (foldl_sound (fun h => replayEntry_sound h) (h.of_mem rfl)))) (blockFrd_sound
    (updCtx_sound (foldl_sound (fun h => replayEntry_sound h) (h.of_mem rfl))))

/-! ### The host, peers, reset and debug -/

theorem failCore_sound {k : Nat} (h : SoundMem s) : SoundMem (failCore s k) := by
  unfold failCore
  refine updCore_sound (stopCores_sound ?_)
  split
  · exact hardError_sound h
  · exact h

theorem execUncorrectableError_sound {site : ErrSite} (h : SoundMem s) : NextSound (execUncorrectableError site s) := by
  unfold execUncorrectableError
  refine ite_sound h ?_
  split
  · exact ite_sound (failCore_sound h) h
  · exact ite_sound (h.of_mem rfl) h
  · exact ite_sound (h.of_mem rfl) h
  · dsimp only
    split
    · exact failCore_sound (h.of_mem rfl)
    · exact failCore_sound (h.of_mem rfl)
    · exact h.of_mem rfl
    · exact h.of_mem rfl
    all_goals exact h

theorem hostAnswer_sound {bar : Nat} {bs : List Byte} (h : SoundMem s) : SoundMem (hostAnswer s bar bs) := h

theorem hostAt_sound {bar pa n : Nat} {write : Bool} {data ones : Nat} (h : SoundMem s) :
    SoundMem (hostAt s bar pa n write data ones) := by
  unfold hostAt
  refine ite_sound (ite_sound h (h.of_mem rfl)) (ite_sound (engWriteParts_sound h) ?_)
  split
  · next hr => exact ((engReadParts_sound h).snd_snd hr).of_mem rfl
  · next hr => exact ((engReadParts_sound h).snd_snd hr).of_mem rfl

theorem hostRejects_sound {bar : Nat} {write : Bool} (h : SoundMem s) : SoundMem (hostRejects s bar write) := by
  unfold hostRejects
  exact ite_sound h (h.of_mem rfl)

theorem execHostBarAccess_sound {bar offset size : Nat} {write : Bool} {data : Nat} (h : SoundMem s) :
    NextSound (execHostBarAccess bar offset size write data s) := by
  unfold execHostBarAccess
  exact ite_sound h (ite_sound (hostRejects_sound h) (ite_sound (ite_sound (regWriteBytes_sound h) (hostAnswer_sound (foldl_sound (fun
    h => regReadClears_sound h) h))) (hostAt_sound h)))

theorem deviceAtomic_sound {pa w op : Nat} {signed : Bool} {operand compare : Nat} (h : SoundMem s) :
    SoundMem (deviceAtomic s pa w op signed operand compare).2 := by
  unfold deviceAtomic
  split
  · exact h
  · dsimp only
    split
    · exact writeN_sound (llcTouch_sound h)
    · exact llcTouch_sound h

theorem execHostAtomicop_sound {op : HostAtomic} {offset size operand compare : Nat} (h : SoundMem s) :
    NextSound (execHostAtomicop op offset size operand compare s) := by
  unfold execHostAtomicop
  exact ite_sound h (ite_sound (hostAnswer_sound h) (hostAnswer_sound (deviceAtomic_sound h)))

theorem completeOuter_sound {o : Outer} {data : List Byte} (h : SoundMem s) : SoundMem (completeOuter s o data) := by
  unfold completeOuter
  exact performMem_sound (write_sound h)

theorem execPcieCompletion_sound {tag : Nat} {ok : Bool} {data : List Byte} (h : SoundMem s) :
    NextSound (execPcieCompletion tag ok data s) := by
  unfold execPcieCompletion
  refine ite_sound h ?_
  split
  · exact h
  · refine ite_sound ?_ (ite_sound (completeOuter_sound (h.of_mem rfl)) h)
    split <;> exact failAccess_sound (h.of_mem rfl)

theorem execPcieCompletionTimeout_sound {tag : Nat} (h : SoundMem s) : NextSound (execPcieCompletionTimeout tag s) := by
  unfold execPcieCompletionTimeout
  refine ite_sound h ?_
  split
  · exact h
  · exact failAccess_sound (h.of_mem rfl)

theorem peerAnswer_sound {t n : Nat} {bs : List Byte} (h : SoundMem s) : SoundMem (peerAnswer s t n bs) := h

theorem peerReply_sound {o : Outer} {data : List Byte} (h : SoundMem s) : SoundMem (peerReply s o data) := by
  unfold peerReply
  dsimp only
  split
  · exact ite_sound (answerAccess_sound (h.of_mem rfl)) (ite_sound (failAccess_sound (h.of_mem rfl)) (ite_sound (failAccess_sound
      (h.of_mem rfl)) (ite_sound (failAccess_sound (h.of_mem rfl)) h)))
  · exact ite_sound (answerAccess_sound (h.of_mem rfl)) (ite_sound (failAccess_sound (h.of_mem rfl)) (ite_sound (failAccess_sound
      (h.of_mem rfl)) (ite_sound (failAccess_sound (h.of_mem rfl)) h)))
  all_goals exact ite_sound (answerAccess_sound (h.of_mem rfl)) h

theorem peerAcked_sound {n tag : Nat} (h : SoundMem s) : SoundMem (peerAcked s n tag) := h

theorem execPeerMessage_sound {n : Nat} {m : PeerMsg} (h : SoundMem s) : NextSound (execPeerMessage n m s) := by
  unfold execPeerMessage
  refine ite_sound h ?_
  dsimp only
  split
  · refine ite_sound (peerAnswer_sound h) ?_
    split
    · next hr => exact peerAnswer_sound ((engReadParts_sound h).snd_snd hr)
    · next hr => exact peerAnswer_sound ((engReadParts_sound h).snd_snd hr)
  · exact ite_sound h (peerAnswer_sound (engWriteParts_sound h))
  · exact ite_sound (peerAnswer_sound h) (peerAnswer_sound (deviceAtomic_sound h))
  · exact peerAcked_sound h
  · split
    · exact h
    · exact peerReply_sound h

theorem execPeerRetransmit_sound {tag : Nat} (h : SoundMem s) : NextSound (execPeerRetransmit tag s) := by
  unfold execPeerRetransmit
  split
  · split
    · exact h
    · exact ite_sound (h.of_mem rfl) (peerDown_sound h)
  · exact ite_sound h (ite_sound (h.of_mem rfl) (peerDown_sound h))

theorem execDeviceReset_sound {b : BootInput} (h : SoundMem s) : NextSound (execDeviceReset b s) :=
  mk_sound (memWf_filter _ _ h)

theorem execAttestationReport_sound (h : SoundMem s) : NextSound (execAttestationReport s) := by
  unfold execAttestationReport
  refine ite_sound h ?_
  split
  · next hr =>
    split at hr
    · cases hr
    · exact mk_sound ((physWrite_sound h).some hr)
  · exact h.of_mem rfl

/-! ### Every instruction and event -/

theorem exec_sound {i : Instr} (h : SoundMem s) : NextSound (exec i s) := by
  cases i with
  | nop | nopA => exact h
  | br | beq | bne | blt | bge | bltn | bgen => exact branch_sound h
  | call => exact callTo_sound h
  | jr => exact ite_sound (h.of_mem rfl) (trap_sound h)
  | callr => exact ite_sound (callTo_sound h) (trap_sound h)
  | ret | rset => exact ite_sound (trap_sound h) (ite_sound (trap_sound h) (h.of_mem rfl))
  | loop | rep => exact beginLoop_sound h
  | trap => exact updCur_sound (takeTrap_sound (h.of_mem rfl))
  | eret => exact privileged_sound h (fun _ h => ite_sound (updCur_sound (returnFromTrap_sound h)) (h.of_mem rfl))
  | start => exact ite_sound (trap_sound h) (ite_sound (trap_sound h) (ite_sound (h.of_mem rfl) (h.of_mem rfl)))
  | join => exact ite_sound (trap_sound h) (ite_sound (h.of_mem rfl) h)
  | hend => exact execHend_sound h
  | yield | mfs | tlate | add | sub | and | or | xor | andn | shl | shr | sra | mul | mulh | div | rem | min | max | seq | sne | slt
  | sle | sel | popc | clz | ctz | ext | rol | ror | bswap | bext | bins | abs | movi | lui | addi | andi | ori | xori | shli | shri
  | srai | rori | muli | slti | sltin | seqi | pand | por | pxor | pnot | pcnt | bypass | idcode | samplePreload | extest =>
    exact h.of_mem rfl
  | done => exact execDone_sound h
  | tend | shp => exact ite_sound (trap_sound h) (h.of_mem rfl)
  | wfi => exact privileged_sound h (fun _ h => ite_sound (h.of_mem rfl) h)
  | mts => exact ite_sound (trap_sound h) (sysWrite_sound h)
  | tlbinv => exact execTlbinv_sound h
  | save => exact execSave_sound h
  | saveRes => exact execSaveRes_sound h
  | rest => exact execRest_sound h
  | curf => exact privileged_sound h (fun _ h => ite_sound (trap_sound h) (h.of_mem rfl))
  | spawn | gang => exact launch_sound h
  | tlateSet => exact execTlateSet_sound h
  | ldb | ldbn | ldh | ldhn | ldw | ldwn | ldd | ldq | ldv | ldbx | ldbnx | ldhx | ldhnx | ldwx | ldwnx | lddx | ldqx | ldvx =>
    exact load_sound h
  | stb | sth | stw | std | stq | stv | stbx | sthx | stwx | stdx | stqx | stvx => exact store_sound h
  | fetch => exact execFetch_sound h
  | rldw | rldd => exact remoteLd_sound h
  | rstw | rstd => exact remoteSt_sound h
  | aadd | aand | aor | axor | amin | amax | aswp | acas => exact atomic_sound h
  | frd => exact execFrd_sound h
  | fwr => exact homeOp_sound h
  | fence => exact execFence_sound h
  | qfence => exact ite_sound (h.of_mem rfl) (ite_sound (h.of_mem rfl) (h.of_mem rfl))
  | cwb | cinv | cwbi | cpin | cunpin | pref => exact maint_sound h
  | cpgo => exact execCpgo_sound h
  | sacq => exact ite_sound (h.of_mem rfl) (ite_sound (h.of_mem rfl) (acquireNow_sound (h.of_mem rfl)))
  | srel => exact execSrel_sound h
  | sget | glend | mcommit | mwait | scanout => exact ite_sound (h.of_mem rfl) (h.of_mem rfl)
  | bell => exact execBell_sound h
  | bwait => exact ite_sound (trap_sound h) (ite_sound (h.of_mem rfl) (ite_sound (h.of_mem rfl) (acquireNow_sound h)))
  | sstep => exact execSstep_sound h
  | xsend | greq => exact send_sound h
  | collBar | collAg | collRs | collA2a => exact coll_sound h
  | glset => exact execGlset_sound h
  | glrun => exact execGlrun_sound h
  | glfoot | glfootV => exact foot_sound h
  | glnext => exact ite_sound (trap_sound h) (ite_sound (trap_sound h) (glStep_sound h))
  | vadd | vsub | vmul | vdiv | vmin | vmax | vabs | vneg | vfma | vfms | vsqrt | vand | vor | vxor | vshl | vshr | vcvt | vceq | vcne
  | vclt | vcle | vsel | vrsum | vrmin | vrmax | vperm | vbcast | vslide | vextg | vinsg | vmov | vmovi | vpopc | vclz | vmulh =>
    exact pushV_sound h
  | vgat | vsct => exact pushVMem_sound h
  | aget | aput => exact ite_sound (trap_sound h) (pushV_sound h)
  | sisect => exact execSisect_sound h
  | mma | mmaz => exact dense_sound h
  | mmt => exact execMmt_sound h
  | twalk | twres => exact walk_sound h
  | aclr => exact execAclr_sound h
  | rpush => exact execRpush_sound h
  | rpop => exact execRpop_sound h
  | tendRetire => exact execTendRetire_sound h
  | hostQueueRead => exact ite_sound (readQueue_sound h) h
  | spillRefill => exact execSpillRefill_sound h
  | taskPlace => exact execTaskPlace_sound h
  | granaryProgramPlace => exact execGranaryProgramPlace_sound h
  | taskLate => exact execTaskLate_sound h
  | uncorrectableError => exact execUncorrectableError_sound h
  | llcSectorRetire | phaseWrite | lsWrite | mstatWrite | copyRegisterWrite | droopEvent | powerWithinLimit | hostLinkChange =>
    exact ite_sound h (h.of_mem rfl)
  | domainStall => exact ite_sound h (raise_sound (updCluster_sound (censusWrite_sound h)))
  | writeBufferDrain => exact execWriteBufferDrain_sound h
  | homeAccess => exact execHomeAccess_sound h
  | loadDataReturn => exact execLoadDataReturn_sound h
  | fetchComplete => exact execFetchComplete_sound h
  | translationWalk => exact execTranslationWalk_sound h
  | tlbinvComplete => exact execTlbinvComplete_sound h
  | waySample => exact ite_sound (wayBegin_sound (h.of_mem rfl)) h
  | wayChangeComplete => exact execWayChangeComplete_sound h
  | vectorStart => exact execVectorStart_sound h
  | vectorComplete => exact execVectorComplete_sound h
  | millCommandStart => exact ite_sound h (startHead_sound h)
  | millStep => exact execMillStep_sound h
  | millCommandRetire => exact execMillCommandRetire_sound h
  | rpopPerform | aclrPerform => exact ite_sound h (turnStep_sound h)
  | walkWave => exact ite_sound h (ifInTurn_sound h (turnStep_sound h))
  | copyRow => exact execCopyRow_sound h
  | copyComplete => exact execCopyComplete_sound h
  | superstepComplete => exact execSuperstepComplete_sound h
  | xsendEmit => exact execXsendEmit_sound h
  | xsendDelivery => exact execXsendDelivery_sound h
  | gatherRequestArrival => exact execGatherRequestArrival_sound h
  | gatherReplyEmit => exact execGatherReplyEmit_sound h
  | gatherReplyDelivery => exact execGatherReplyDelivery_sound h
  | doneArrival => exact execDoneArrival_sound h
  | collectiveStart => exact execCollectiveStart_sound h
  | collectiveComplete => exact execCollectiveComplete_sound h
  | packetInject => exact execPacketInject_sound h
  | packetHop => exact execPacketHop_sound h
  | packetSuspect => exact execPacketSuspect_sound h
  | lanternCapture => exact @execLanternCapture_sound s h
  | bywayEject => exact execBywayEject_sound h
  | packetDeliver => exact execPacketDeliver_sound h
  | ackArrival => exact execAckArrival_sound h
  | linkRetry => exact ite_sound h (ite_sound (loseTasks_sound (h.of_mem rfl)) (h.of_mem rfl))
  | routeTableRecompute => exact ite_sound h (ite_sound (ite_sound (h.of_mem rfl) (h.of_mem rfl)) (h.of_mem rfl))
  | routerFail => exact ite_sound h (loseTasks_sound (foldl_sound (fun h => dropMsg_sound h) (h.of_mem rfl)))
  | trapEntry => exact takeReport_sound h
  | interrupt => exact takeInterrupt_sound h
  | curfewStop => exact execCurfewStop_sound h
  | curfewResume => exact execCurfewResume_sound h
  | domainWrite => exact ite_sound h (writeDomain_sound h)
  | waymaskWrite => exact ite_sound h (writeWaymask_sound h)
  | waylimWrite => exact ite_sound h (writeWaylim_sound h)
  | netctlWrite => exact ite_sound (writeNetctl_sound h) h
  | pctlWrite => exact ite_sound (writePctl_sound h) h
  | registerWrite => exact ite_sound (regWrite_sound h) h
  | doorbell => exact regWrite_sound h
  | attestationReport => exact execAttestationReport_sound h
  | deviceReset => exact execDeviceReset_sound h
  | powerThrottle => exact ite_sound h (ite_sound (h.of_mem rfl) (raise_sound (h.of_mem rfl)))
  | senseInterval => exact ite_sound h (ite_sound (raise_sound (h.of_mem rfl)) (h.of_mem rfl))
  | hostBarAccess => exact execHostBarAccess_sound h
  | hostAtomicop => exact execHostAtomicop_sound h
  | pcieCompletion => exact execPcieCompletion_sound h
  | pcieCompletionTimeout => exact execPcieCompletionTimeout_sound h
  | peerMessage => exact execPeerMessage_sound h
  | peerRetransmit => exact execPeerRetransmit_sound h
  | portLinkChange => exact ite_sound h (raise_sound (h.of_mem rfl))
  | dbgctlFrz => exact freeze_sound h
  | freeze => exact ite_sound (freeze_sound (h.of_mem rfl)) (h.of_mem rfl)
  | saveEngineFinish => exact execSaveEngineFinish_sound h
  | supplyRecovery => exact ite_sound (h.of_mem rfl) h

/-! ### One bundle of a core -/

theorem fetchWords_sound {k c : Nat} {pc : PC} (h : SoundMem s) : SoundMem (fetchWords s k c pc).2 := by
  unfold fetchWords
  split
  · dsimp only
    split
    · exact h
    · exact h.of_mem rfl
  · exact h

theorem capture_sound {k c : Nat} {pc : PC} {w : Nat × Nat} (h : SoundMem s) : SoundMem (capture s k c pc w) := by
  unfold capture
  split
  · exact ite_sound (h.of_mem rfl) h
  · exact h

theorem loopUpkeep_sound {k c : Nat} {began : Bool} (h : SoundMem s) : SoundMem (loopUpkeep s k c began) := by
  unfold loopUpkeep
  refine ite_sound ?_ ?_
  · refine updCore_sound ?_
    split
    · exact ite_sound h (h.of_mem rfl)
    · exact h
  · split
    · exact ite_sound h (h.of_mem rfl)
    · exact h

theorem runA_sound {a : Instr} (h : SoundMem s) : NextSound (runA a s) := by
  unfold runA
  exact exec_sound (h.of_mem rfl)

theorem runInOrder_sound {c a : Instr} (h : SoundMem s) : NextSound (runInOrder c a s) := by
  unfold runInOrder
  split
  · next hr =>
    have ht := (exec_sound h).next hr
    split
    · exact ht
    · exact ht
    all_goals
      split
      · next hu =>
        have hv := (runA_sound (updCur_sound ht)).next hu
        split
        · split
          · exact trap_sound h
          · exact hv
        · exact stall_sound h
        · exact updCur_sound hv
        · split
          · exact stall_sound h
          · exact updCur_sound hv
      · exact runA_sound (updCur_sound ht)
  · exact exec_sound h

theorem runLast_sound {c a : Instr} (h : SoundMem s) : NextSound (runLast c a s) := by
  unfold runLast
  split
  · exact trap_sound h
  · split
    · next hr =>
        split
        · exact (exec_sound h).next hr
        · split
          · next hr2 =>
              split
              · exact (runA_sound h).next hr2
              · exact h.of_mem rfl
              · exact h.of_mem rfl
              · exact exec_sound (((runA_sound h).next hr2).of_mem rfl)
          · exact runA_sound h
    · exact exec_sound h

theorem runBundle_sound {b : Bundle} (h : SoundMem s) : NextSound (runBundle b s) := by
  unfold runBundle
  split
  · exact exec_sound h
  · split
    · exact runLast_sound h
    · exact runInOrder_sound h

theorem finish_sound {k c : Nat} {i : Instr} (h : SoundMem s) : SoundMem (finish k c i s) := by
  unfold finish
  exact ite_sound (ite_sound (updCore_sound (loopUpkeep_sound (ite_sound (h.of_mem rfl) h))) (rearm_sound (updCore_sound
    (loopUpkeep_sound (ite_sound (h.of_mem rfl) h))))) (loopUpkeep_sound (ite_sound (h.of_mem rfl) h))

theorem begin_sound {k c : Nat} {w : Nat × Nat} (h : SoundMem s) : SoundMem (begin s k c w) := h

theorem issueBundle_sound {k c w0 : Nat} {e : Bundle} (h : SoundMem s) : NextSound (issueBundle k c w0 e s) := by
  unfold issueBundle
  dsimp only
  split
  · exact trap_sound h
  · split
    · exact trap_sound h
    · split
      · exact trap_sound h
      · split
        · exact h.of_mem rfl
        · split
          · next hr => exact finish_sound ((runBundle_sound h).next hr)
          · exact runBundle_sound h

theorem attempt_sound {k c : Nat} (h : SoundMem s) : NextSound (attempt s k c) := by
  unfold attempt
  split
  · exact updCur_sound (takeReport_sound h)
  · split
    · exact updCur_sound (takeInterrupt_sound h)
    · dsimp only
      split
      · exact stall_sound (capture_sound (begin_sound (fetchWords_sound h)))
      · split
        · exact trap_sound (capture_sound (begin_sound (fetchWords_sound h)))
        · exact issueBundle_sound (capture_sound (begin_sound (fetchWords_sound h)))

theorem yieldTrim_sound {k c : Nat} {t : State} (h : SoundMem t) : SoundMem (yieldTrim s k c t) := by
  unfold yieldTrim
  exact ite_sound h (foldl_sound (fun h => h.of_mem rfl) (h.of_mem rfl))

theorem firstOf_sound {k : Nat} {l : List Nat} (h : SoundMem s) : NextSound (firstOf k l s) := by
  induction l generalizing s with
  | nil => exact h
  | cons c t ih =>
    unfold firstOf
    split
    · split
      · next hr =>
        have ht := (attempt_sound h).next hr
        split
        · exact ih ht
        · exact yieldTrim_sound ht
      · exact attempt_sound h
    · exact ih h

theorem yieldUpkeep_sound {k : Nat} (h : SoundMem s) : SoundMem (yieldUpkeep s k) := h

theorem laneTick_sound (h : SoundMem s) : SoundMem s.laneTick := by
  unfold State.laneTick
  exact ite_sound (h.of_mem rfl) h

theorem tick_sound (h : SoundMem s) : SoundMem s.tick := by
  unfold State.tick
  exact spend_sound (mk_sound (laneTick_sound h))

theorem issueCore_sound {k : Nat} (h : SoundMem s) : NextSound (issueCore s k) := by
  unfold issueCore
  split
  · exact h
  · have hs : SoundMem (yieldUpkeep (wake s.tick k) k) := yieldUpkeep_sound (wake_sound (tick_sound h))
    dsimp only
    generalize yieldUpkeep (wake s.tick k) k = u at hs
    exact firstOf_sound hs

/-! ### System software -/

theorem editCtx_sound {k c : Nat} {e : Edit} (h : SoundMem s) : SoundMem (editCtx k c s e) := by
  unfold editCtx
  split
  · exact h.of_mem rfl
  · exact h.of_mem rfl
  · exact h.of_mem rfl
  · exact ite_sound (sysWrite_sound h) h

theorem resumeDelegated_sound {k c : Nat} {edits : List Edit} (h : SoundMem s) : SoundMem (resumeDelegated s k c edits) := by
  unfold resumeDelegated
  exact ite_sound h (ifInTurn_sound h (returnFromTrap_sound (updCtx_sound (updCore_sound (foldl_sound (fun h => editCtx_sound h) h)))))

theorem endBySoftware_sound {ticket : Nat} {c : Cause} (h : SoundMem s) : SoundMem (endBySoftware s ticket c) := by
  unfold endBySoftware
  split
  · exact h
  · exact ite_sound h (endTask_sound h)

theorem assignCluster_sound {cl p : Nat} (h : SoundMem s) : SoundMem (assignCluster s cl p) := by
  unfold assignCluster
  exact ite_sound h (rearm_sound (updCluster_sound (rearm_sound (ite_sound (h.of_mem rfl) h))))

/-! ### The default step -/

theorem move_sound {m : Move} (h : SoundMem s) : NextSound (move m s) := by
  unfold move
  split
  · split
    · exact issueCore_sound h
    · trivial
  · exact exec_sound h
  · exact resumeDelegated_sound h
  · exact endBySoftware_sound h
  · exact assignCluster_sound h

theorem firstEvent_sound {l : List Instr} (h : SoundMem s) : SomeHas NextSound (firstEvent l s) := by
  induction l generalizing s with
  | nil => trivial
  | cons e t ih =>
    unfold firstEvent
    split
    · next hr =>
      split
      · exact ih h
      · exact (exec_sound h).next hr
    · exact exec_sound h

/-- Where no event is found, another outcome stands. -/
theorem getD_sound {o : Option (Host.Outcome State Fault Refusal)} {r : Host.Outcome State Fault Refusal} (ho : SomeHas NextSound o)
    (hr : NextSound r) : NextSound (o.getD r) := by
  cases o with
  | none => exact hr
  | some _ => exact ho

theorem issueOrWait_sound (h : SoundMem s) : NextSound (issueOrWait s) := by
  unfold issueOrWait
  split
  · split
    · next hr =>
      have ht := (issueCore_sound (mk_sound h)).next hr
      split
      · exact getD_sound (firstEvent_sound ht) ht
      · exact ht
    · exact issueCore_sound (mk_sound h)
  · exact getD_sound (firstEvent_sound h) (tick_sound h)

theorem defaultStep_sound (h : SoundMem s) : NextSound (defaultStep s) := by
  unfold defaultStep
  split
  · dsimp only
    split
    · exact exec_sound (mk_sound h)
    · exact mk_sound h
  · exact getD_sound (firstEvent_sound h) (issueOrWait_sound h)

/-! ### One step -/

theorem step_sound (h : SoundMem s) : NextSound (step s) := by
  unfold step
  split
  · exact defaultStep_sound h
  · exact move_sound (h.of_mem rfl)

end Sys2Proof.Laws
end

section
/-! PROOFS. The statements about reset and memory. -/

namespace Sys2Proof.Proofs

open Sys2Proof.Machine Sys2Proof.Laws

/-! ### Reset (R9, R442) -/

theorem core_reset (k : Nat) : State.reset.core k = {} := rfl

theorem ctx_reset (k c : Nat) : State.reset.ctx k c = {} := rfl

/-- A context after reset is free, its registers read zero, and it has no report. -/
theorem ctx_reset_regs (k c : Nat) :
    (State.reset.ctx k c).run = .free ∧ (∀ r, (State.reset.ctx k c).readG r = 0) ∧ (∀ r, (State.reset.ctx k c).readP r = 0) ∧
      (∀ r, (State.reset.ctx k c).readV r = 0) ∧ (State.reset.ctx k c).reports = [] := by
  rw [ctx_reset]
  exact ⟨rfl, fun r => ite_self _, fun r => rfl, fun r => rfl, rfl⟩

/-- A core after reset has nothing queued or outstanding. -/
theorem core_reset_idle (k : Nat) :
    (State.reset.core k).ops = [] ∧ (State.reset.core k).wb = [] ∧ (State.reset.core k).l1 = [] ∧ (State.reset.core k).vq = [] ∧
      (State.reset.core k).mq = [] ∧ (State.reset.core k).cq = [] ∧ (State.reset.core k).xq = [] ∧ (State.reset.core k).irq = [] := by
  rw [core_reset]
  exact ⟨rfl, rfl, rfl, rfl, rfl, rfl, rfl, rfl⟩

/-! The words of the system registers that are put together from fields, at the reset values of the fields. -/

theorem phaseWord_reset : (BitVec.ofNat 64 (phaseWord {})).toNat = 0 := by decide
theorem mstatWord_reset : (BitVec.ofNat 64 (mstatWord {})).toNat = 1 := by decide
theorem weightsWord_reset : (BitVec.ofNat 64 (weightsWord [])).toNat = 0x11111111 := by decide
theorem waymaskWord_reset : (BitVec.ofNat 64 (waymaskWord {})).toNat = 0x8FF00 := by decide
theorem waylimWord_reset : (BitVec.ofNat 64 (waylimWord {})).toNat = 0x1140808 := by decide
theorem causeWord_reset : (BitVec.ofNat 64 (TrapCause.word {})).toNat = 0 := by decide
theorem glstatWord_reset : (BitVec.ofNat 64 (glstatWord {})).toNat = 0xF000000000 := by decide
theorem lsWord_reset : (BitVec.ofNat 64 (lsWord {})).toNat = 0 := by decide

/-- Settles O5: every core and context reads as the default of its table, and each system register as the word of its fields' reset
values. -/
theorem resetState : Obligations.ResetState := by
  unfold Obligations.ResetState
  exact ⟨ctx_reset_regs, core_reset_idle, rfl, rfl, rfl, rfl, fun k c _ =>
    ⟨rfl, phaseWord_reset, mstatWord_reset, rfl, rfl, rfl, rfl, weightsWord_reset, weightsWord_reset, waymaskWord_reset, waylimWord_reset, rfl,
     causeWord_reset, rfl, glstatWord_reset, rfl, rfl, rfl, rfl, rfl, rfl, lsWord_reset⟩⟩

/-- Settles O6: memory lists nothing at reset. -/
theorem resetSound : Obligations.ResetSound := by
  unfold Obligations.ResetSound
  exact reset_sound

/-! ### Memory (R4) -/

theorem readN_writeN (s : State) (a n x : Nat) : (s.writeN a n x).readN a n = x % 256 ^ n := by
  have h := memRead_memWrite s.mem a (toBytes n x)
  rw [length_toBytes] at h
  calc (s.writeN a n x).readN a n = ofBytes (toBytes n x) := congrArg ofBytes h
    _ = x % 256 ^ n := ofBytes_toBytes n x

theorem sameMemBut_write (s : State) (a : Nat) (bs : List Byte) : SameMemBut s (s.write a bs) a bs.length :=
  fun x hx => memGet_memWrite_other s.mem a bs x hx

theorem sameMemBut_writeN (s : State) (a n x : Nat) : SameMemBut s (s.writeN a n x) a n := by
  have h := sameMemBut_write s a (toBytes n x)
  rwa [length_toBytes] at h

/-- Settles O8: the bytes of a number are read back and give the number again, and a write changes only the bytes of its range. -/
theorem memoryReadAfterWrite : Obligations.MemoryReadAfterWrite := by
  unfold Obligations.MemoryReadAfterWrite
  exact fun s a n x => ⟨readN_writeN s a n x, sameMemBut_writeN s a n x, rfl, memRead_memWrite s.mem a⟩

/-- Settles O7: every function from which a step builds the next state keeps memory in canonical form (`step_sound`). -/
theorem stepKeepsMemoryForm : Obligations.StepKeepsMemoryForm := by
  unfold Obligations.StepKeepsMemoryForm
  exact fun s t h e => (step_sound h).next e

end Sys2Proof.Proofs
end
